-- ==== Sys2Proof/Word.lean ====
section
/-! DEFINITION. The word types of the block. A bit is a Bool: `false` is dominant (logical 0), `true`
is recessive (logical 1), 00_scope.md R11. Registers whose contents the spec shifts, masks or counts
are bit vectors of the width 10_state.md gives; sample indices are unbounded integers (R9). -/

namespace Sys2Proof

/-- One logical or raw level: `false` = 0, `true` = 1 (00_scope.md R11). -/
abbrev Bit := Bool

/-- One byte of the data buffer (10_state.md R31). -/
abbrev Byte := BitVec 8

/-- The dominant level, logical 0 (00_scope.md R11). -/
abbrev dominant : Bit := false

/-- The recessive level, logical 1 (00_scope.md R11). -/
abbrev recessive : Bit := true

/-- A bit zero-extended to `w` bits (`zext_N`, 00_scope.md R12). -/
def bitAs (w : Nat) (b : Bit) : BitVec w := BitVec.ofNat w b.toNat

end Sys2Proof
end

