-- ==== Sys2Proof/Syntax.lean ====
section
/-! DEFINITION. The names the block's rules are written in: engine states, frame types, error causes,
record kinds and marks (30_encoding.md R81 to R87), and the micro-operations of 30_encoding.md R90, one
constructor of `Instr` per row of opcode_table.json. -/

namespace Sys2Proof

/-- The engine states of 30_encoding.md R84. Code 15 is never written and has no constructor. -/
inductive EngState where
  | idle | identifier | controlBase | controlExtended | controlAfterR0 | data | sbc
  | crc15 | crc17 | crc21 | crcdel | ack | endOfFrame | intermission | decoderError
  deriving DecidableEq, Repr

/-- The frame types of 30_encoding.md R85: DATA, REMOTE, FD_DATA. Code 3 is never written. -/
inductive FrameType where
  | data | remote | fdData
  deriving DecidableEq, Repr

/-- The error causes of 30_encoding.md R87. Codes 5 to 7 are never written. -/
inductive ErrCause where
  | none | stuff | fixedStuff | form | crc15
  deriving DecidableEq, Repr

/-- The field record kinds of 30_encoding.md R81. -/
inductive RecKind where
  | stdIdentifier | extIdentifier | classicControl | fdControl | data | crc15 | crc17 | crc21
  | stuffBitCount | ack | eof | intermission | error
  deriving DecidableEq, Repr

/-- The marks of 30_encoding.md R83. -/
inductive MarkKind where
  | start | zero | one | dot | errorDot | x | errorX | upArrow | downArrow | errorSquare
  deriving DecidableEq, Repr

/-- The six destuffer operations of 42_destuffer.md R140. -/
inductive DsOp where
  | direct | forced | stuff | stuffError | passSame | passToggle
  deriving DecidableEq, Repr

/-- The destuffer outcomes of 30_encoding.md R86. -/
inductive DsOutcome where
  | direct | forced | stuff | stuffError | pass
  deriving DecidableEq, Repr

/-- The engine operations of 30_encoding.md R90, in the order of opcode_table.json. -/
inductive EngOp where
  | idleRecessive | idleSof
  | idBit | idRtrSrr | idIde | idExtBit | idExtRtr
  | cbFdf | cbRes | ceFdf | ceR0
  | caDlcClassic | caBrs | caEsi | caDlcFd
  | dataBit | sbcFsb | sbcBit | sbcLast
  | crc15Bit | crc15Last | crc17Fsb | crc17Bit | crc17Last | crc21Fsb | crc21Bit | crc21Last
  | crcdelBit | ackSlot | ackDel | eofBit | ifsBit | errBit
  deriving DecidableEq, Repr

/-- The three CRC engines of 41_crc_engines.md, which other operations call (format `CALL`). -/
inductive CrcEngine where
  | crc15 | crc17 | crc21
  deriving DecidableEq, Repr

/-- The micro-operations, one constructor per row of opcode_table.json. The operand `b` is the logical
bit the operation works on (00_scope.md R15); `raw` is the raw level of the tick's sample (R121) and `v`
the logical level of the sample that CLK_SAMPLE takes (R211). -/
inductive Instr where
  | reset
  | tick (raw : Bit)
  | clkResync
  | clkSample (v : Bit)
  | clkSwitchUp
  | clkSwitchDown
  | crc15Step (b : Bit)
  | crc17Step (b : Bit)
  | crc21Step (b : Bit)
  | dsDirect (b : Bit)
  | dsForced (b : Bit)
  | dsStuff (b : Bit)
  | dsStuffError (b : Bit)
  | dsPassSame (b : Bit)
  | dsPassToggle (b : Bit)
  | idleRecessive (b : Bit)
  | idleSof (b : Bit)
  | idBit (b : Bit)
  | idRtrSrr (b : Bit)
  | idIde (b : Bit)
  | idExtBit (b : Bit)
  | idExtRtr (b : Bit)
  | cbFdf (b : Bit)
  | cbRes (b : Bit)
  | ceFdf (b : Bit)
  | ceR0 (b : Bit)
  | caDlcClassic (b : Bit)
  | caBrs (b : Bit)
  | caEsi (b : Bit)
  | caDlcFd (b : Bit)
  | dataBit (b : Bit)
  | sbcFsb (b : Bit)
  | sbcBit (b : Bit)
  | sbcLast (b : Bit)
  | crc15Bit (b : Bit)
  | crc15Last (b : Bit)
  | crc17Fsb (b : Bit)
  | crc17Bit (b : Bit)
  | crc17Last (b : Bit)
  | crc21Fsb (b : Bit)
  | crc21Bit (b : Bit)
  | crc21Last (b : Bit)
  | crcdelBit (b : Bit)
  | ackSlot (b : Bit)
  | ackDel (b : Bit)
  | eofBit (b : Bit)
  | ifsBit (b : Bit)
  | errBit (b : Bit)
  deriving DecidableEq, Repr

end Sys2Proof
end

