-- ==== Sys2Proof/WellFormed.lean ====
section
/-! DEFINITION. Well-formed micro-operations: an operand has a value the row's selector admits. Only the
two IDLE rows fix their bit (30_encoding.md R90: IDLE_RECESSIVE `b = 1`, IDLE_SOF `b = 0`); every other
row admits both values of its operand. -/

namespace Sys2Proof

/-- Whether the operand of a micro-operation has a value its row admits (30_encoding.md R90). -/
def Instr.wf : Instr → Bool
  | .idleRecessive b => b
  | .idleSof b => !b
  | .reset | .tick _ | .clkResync | .clkSample _ | .clkSwitchUp | .clkSwitchDown => true
  | .crc15Step _ | .crc17Step _ | .crc21Step _ => true
  | .dsDirect _ | .dsForced _ | .dsStuff _ | .dsStuffError _ | .dsPassSame _ | .dsPassToggle _ => true
  | .idBit _ | .idRtrSrr _ | .idIde _ | .idExtBit _ | .idExtRtr _ => true
  | .cbFdf _ | .cbRes _ | .ceFdf _ | .ceR0 _ => true
  | .caDlcClassic _ | .caBrs _ | .caEsi _ | .caDlcFd _ => true
  | .dataBit _ | .sbcFsb _ | .sbcBit _ | .sbcLast _ => true
  | .crc15Bit _ | .crc15Last _ | .crc17Fsb _ | .crc17Bit _ | .crc17Last _ => true
  | .crc21Fsb _ | .crc21Bit _ | .crc21Last _ => true
  | .crcdelBit _ | .ackSlot _ | .ackDel _ | .eofBit _ | .ifsBit _ | .errBit _ => true

/-- A well-formed micro-operation. -/
abbrev WellFormed (i : Instr) : Prop := i.wf = true

end Sys2Proof
end

