-- ==== Sys2Proof/Decode.lean ====
section
/-! DEFINITION. Encodings of the block (30_encoding.md): the numeric codes of R81 to R87, the selector
words of R95 with the rows of R90 that they select, the decoder from a selector to a micro-operation, and
after it the encoder. The block fetches no instruction words: a selector word is gathered from registers
(Machine/Operands.lean) and decoded here. -/

namespace Sys2Proof

/-! ## Codes (30_encoding.md R81 to R87) -/

/-- State codes, 30_encoding.md R84. -/
def EngState.code : EngState → BitVec 4
  | .idle => 0 | .identifier => 1 | .controlBase => 2 | .controlExtended => 3
  | .controlAfterR0 => 4 | .data => 5 | .sbc => 6 | .crc15 => 7 | .crc17 => 8 | .crc21 => 9
  | .crcdel => 10 | .ack => 11 | .endOfFrame => 12 | .intermission => 13 | .decoderError => 14

/-- The state with a given code; code 15 is never written (30_encoding.md R84). -/
def EngState.ofCode? (c : BitVec 4) : Option EngState :=
  [EngState.idle, .identifier, .controlBase, .controlExtended, .controlAfterR0, .data, .sbc,
    .crc15, .crc17, .crc21, .crcdel, .ack, .endOfFrame, .intermission, .decoderError][c.toNat]?

/-- Frame type codes, 30_encoding.md R85. -/
def FrameType.code : FrameType → BitVec 2
  | .data => 0 | .remote => 1 | .fdData => 2

/-- The frame type with a given code; code 3 is never written (30_encoding.md R85). -/
def FrameType.ofCode? (c : BitVec 2) : Option FrameType :=
  [FrameType.data, .remote, .fdData][c.toNat]?

/-- Error cause codes, 30_encoding.md R87. -/
def ErrCause.code : ErrCause → BitVec 3
  | .none => 0 | .stuff => 1 | .fixedStuff => 2 | .form => 3 | .crc15 => 4

/-- Record kind codes, 30_encoding.md R81. -/
def RecKind.code : RecKind → BitVec 4
  | .stdIdentifier => 0 | .extIdentifier => 1 | .classicControl => 2 | .fdControl => 3 | .data => 4
  | .crc15 => 5 | .crc17 => 6 | .crc21 => 7 | .stuffBitCount => 8 | .ack => 9 | .eof => 10
  | .intermission => 11 | .error => 12

/-- Mark codes, 30_encoding.md R83. -/
def MarkKind.code : MarkKind → BitVec 4
  | .start => 0 | .zero => 1 | .one => 2 | .dot => 3 | .errorDot => 4 | .x => 5 | .errorX => 6
  | .upArrow => 7 | .downArrow => 8 | .errorSquare => 9

/-- The outcome each destuffer operation returns to the bit path, 42_destuffer.md R140. -/
def DsOp.outcome : DsOp → DsOutcome
  | .direct => .direct | .forced => .forced | .stuff => .stuff | .stuffError => .stuffError
  | .passSame => .pass | .passToggle => .pass

/-- The outcomes after which the engine sees the bit, 40_datapath.md R122. -/
def DsOutcome.reachesEngine : DsOutcome → Bool
  | .direct => true | .forced => true | .pass => true | .stuff => false | .stuffError => false

/-! ## Byte count (10_state.md R29) -/

/-- `DLC_TABLE`, 10_state.md R29. -/
def dlcTable : List Nat := [0, 1, 2, 3, 4, 5, 6, 7, 8, 12, 16, 20, 24, 32, 48, 64]

/-- `byteCount()`, 10_state.md R29. -/
def byteCount (frameType : FrameType) (dlc : BitVec 4) : Nat :=
  match frameType with
  | .remote => 0
  | .data => min dlc.toNat 8
  | .fdData => dlcTable.getD dlc.toNat 0

/-! ## Selectors (30_encoding.md R95)

The four formats of R95, with the HOST format split by the row it asks for (its rows overlap: TICK runs
CLK_RESYNC and CLK_SAMPLE inside it), the two switch rows of the ENG format kept apart from the engine
operations that call them, and the registers a row's condition reads beside its word. -/

/-- What the decoder is given: one selector word, labelled by the unit that asks, with the operand and
the registers that the row's condition reads. notes/assumptions/11.md -/
inductive Selector where
  /-- HOST word, rows RESET and TICK; operand the raw level. -/
  | host (word : BitVec 4) (raw : Bit)
  /-- HOST word, row CLK_RESYNC. -/
  | edge (word : BitVec 4)
  /-- HOST word, row CLK_SAMPLE; operand the logical level. -/
  | due (word : BitVec 4) (v : Bit)
  /-- DS word; operand the bit. -/
  | ds (word : BitVec 4) (b : Bit)
  /-- ENG word, engine rows; the bit is bit 0 of the word. -/
  | eng (word : BitVec 8) (fieldIdx : BitVec 10) (dlc : BitVec 4)
  /-- ENG word, rows CLK_SWITCH_UP and CLK_SWITCH_DOWN. -/
  | rate (word : BitVec 8) (fieldIdx : BitVec 10)
  /-- Format CALL: a CRC engine invoked by another operation; operand the bit. -/
  | call (engine : CrcEngine) (b : Bit)
  deriving DecidableEq, Repr

/-- Why a selector decodes to no micro-operation. -/
inductive Reject where
  /-- No HOST row RESET or TICK (never: bit 3 decides). -/
  | noHostRow
  /-- A HOST word without an edge, or with reset asserted: CLK_RESYNC does not run. -/
  | noEdge
  /-- A HOST word with no bit due, or with reset asserted: CLK_SAMPLE does not run. -/
  | noBitDue
  /-- No DS row (never: the six rows are exhaustive, 42_destuffer.md R140). -/
  | noDestufferRow
  /-- An ENG word at which no rate switch is called. -/
  | noSwitch
  /-- An ENG word with state code 15, never written (30_encoding.md R84). -/
  | unwrittenState
  /-- `fieldIdx`, `frameType` or byte count outside every row's condition: unreachable (R90). -/
  | slotOutOfRange
  deriving DecidableEq, Repr

/-- A row applies when `(word & mask) = match` (30_encoding.md R95). -/
def wordMatches {n : Nat} (word pat mask : BitVec n) : Bool := (word &&& mask) == pat

/-! ## Destuffer rows (42_destuffer.md R140, format DS: dsActive, forced, run5, eq) -/

/-- Match and mask of a destuffer row. -/
structure DsRow where
  pat : BitVec 4
  mask : BitVec 4
  deriving DecidableEq, Repr

/-- The DS rows of opcode_table.json. -/
def dsRow : DsOp → DsRow
  | .direct => ⟨0b0000, 0b1000⟩
  | .forced => ⟨0b1100, 0b1100⟩
  | .stuff => ⟨0b1010, 0b1111⟩
  | .stuffError => ⟨0b1011, 0b1111⟩
  | .passSame => ⟨0b1001, 0b1111⟩
  | .passToggle => ⟨0b1000, 0b1111⟩

/-- The destuffer operations in the order of 42_destuffer.md R140. -/
def dsOps : List DsOp := [.direct, .forced, .stuff, .stuffError, .passSame, .passToggle]

/-- Whether a DS row applies to a word. -/
def dsApplies (op : DsOp) (word : BitVec 4) : Bool := wordMatches word (dsRow op).pat (dsRow op).mask

/-- The destuffer operation a DS word selects. -/
def decodeDs (word : BitVec 4) : Option DsOp := dsOps.find? (dsApplies · word)

/-! ## Engine rows (30_encoding.md R90, R95, format ENG: state, frameType, dataRate, b) -/

/-- The condition of an engine row on `fieldIdx` (with `i = fieldIdx + 1`), 30_encoding.md R90. -/
inductive SlotCond where
  /-- Any `fieldIdx`. -/
  | always
  /-- `i` in `lo..hi`. -/
  | slots (lo hi : Nat)
  /-- `fieldIdx mod 5 = 0`. -/
  | fixedStuff
  /-- `fieldIdx mod 5 ≠ 0` and `i < n`. -/
  | carrying (n : Nat)
  /-- `i` in `1..8·byteCount()`. -/
  | withinData
  deriving DecidableEq, Repr

/-- Whether a condition holds for a word, `fieldIdx` and `dlc`. -/
def SlotCond.holds (c : SlotCond) (word : BitVec 8) (fieldIdx : BitVec 10) (dlc : BitVec 4) : Bool :=
  match c with
  | .always => true
  | .slots lo hi => lo ≤ fieldIdx.toNat + 1 && fieldIdx.toNat + 1 ≤ hi
  | .fixedStuff => fieldIdx.toNat % 5 == 0
  | .carrying n => fieldIdx.toNat % 5 != 0 && fieldIdx.toNat + 1 < n
  | .withinData =>
    match FrameType.ofCode? (word.extractLsb' 2 2) with
    | some ft => fieldIdx.toNat + 1 ≤ 8 * byteCount ft dlc
    | none => false

/-- Match, mask and condition of an engine row. -/
structure EngRow where
  pat : BitVec 8
  mask : BitVec 8
  cond : SlotCond
  deriving DecidableEq, Repr

/-- The ENG rows of opcode_table.json that are engine operations. -/
def engRow : EngOp → EngRow
  | .idleRecessive => ⟨0x01, 0xF1, .always⟩
  | .idleSof => ⟨0x00, 0xF1, .always⟩
  | .idBit => ⟨0x10, 0xF0, .slots 1 11⟩
  | .idRtrSrr => ⟨0x10, 0xF0, .slots 12 12⟩
  | .idIde => ⟨0x10, 0xF0, .slots 13 13⟩
  | .idExtBit => ⟨0x10, 0xF0, .slots 14 31⟩
  | .idExtRtr => ⟨0x10, 0xF0, .slots 32 32⟩
  | .cbFdf => ⟨0x20, 0xF0, .slots 1 1⟩
  | .cbRes => ⟨0x20, 0xF0, .slots 2 2⟩
  | .ceFdf => ⟨0x30, 0xF0, .slots 1 1⟩
  | .ceR0 => ⟨0x30, 0xF0, .slots 2 2⟩
  | .caDlcClassic => ⟨0x40, 0xF8, .slots 1 4⟩
  | .caBrs => ⟨0x48, 0xFC, .slots 1 1⟩
  | .caEsi => ⟨0x48, 0xFC, .slots 2 2⟩
  | .caDlcFd => ⟨0x48, 0xFC, .slots 3 6⟩
  | .dataBit => ⟨0x50, 0xF0, .withinData⟩
  | .sbcFsb => ⟨0x60, 0xF0, .slots 1 1⟩
  | .sbcBit => ⟨0x60, 0xF0, .slots 2 4⟩
  | .sbcLast => ⟨0x60, 0xF0, .slots 5 5⟩
  | .crc15Bit => ⟨0x70, 0xF0, .slots 1 14⟩
  | .crc15Last => ⟨0x70, 0xF0, .slots 15 15⟩
  | .crc17Fsb => ⟨0x80, 0xF0, .fixedStuff⟩
  | .crc17Bit => ⟨0x80, 0xF0, .carrying 22⟩
  | .crc17Last => ⟨0x80, 0xF0, .slots 22 22⟩
  | .crc21Fsb => ⟨0x90, 0xF0, .fixedStuff⟩
  | .crc21Bit => ⟨0x90, 0xF0, .carrying 27⟩
  | .crc21Last => ⟨0x90, 0xF0, .slots 27 27⟩
  | .crcdelBit => ⟨0xA0, 0xF0, .always⟩
  | .ackSlot => ⟨0xB0, 0xF0, .slots 1 1⟩
  | .ackDel => ⟨0xB0, 0xF0, .slots 2 2⟩
  | .eofBit => ⟨0xC0, 0xF0, .slots 1 7⟩
  | .ifsBit => ⟨0xD0, 0xF0, .slots 1 3⟩
  | .errBit => ⟨0xE0, 0xF0, .always⟩

/-- The engine operations in the order of opcode_table.json. -/
def engOps : List EngOp :=
  [.idleRecessive, .idleSof, .idBit, .idRtrSrr, .idIde, .idExtBit, .idExtRtr] ++
  [.cbFdf, .cbRes, .ceFdf, .ceR0, .caDlcClassic, .caBrs, .caEsi, .caDlcFd] ++
  [.dataBit, .sbcFsb, .sbcBit, .sbcLast, .crc15Bit, .crc15Last] ++
  [.crc17Fsb, .crc17Bit, .crc17Last, .crc21Fsb, .crc21Bit, .crc21Last] ++
  [.crcdelBit, .ackSlot, .ackDel, .eofBit, .ifsBit, .errBit]

/-- Whether an engine row applies (30_encoding.md R95). -/
def engApplies (op : EngOp) (word : BitVec 8) (fieldIdx : BitVec 10) (dlc : BitVec 4) : Bool :=
  wordMatches word (engRow op).pat (engRow op).mask && (engRow op).cond.holds word fieldIdx dlc

/-- The engine operation an ENG word, `fieldIdx` and `dlc` select. -/
def decodeEng (word : BitVec 8) (fieldIdx : BitVec 10) (dlc : BitVec 4) : Option EngOp :=
  engOps.find? (engApplies · word fieldIdx dlc)

/-! ## The decoder -/

/-- The micro-operation of a destuffer row and its bit. -/
def DsOp.instr (op : DsOp) (b : Bit) : Instr :=
  match op with
  | .direct => .dsDirect b
  | .forced => .dsForced b
  | .stuff => .dsStuff b
  | .stuffError => .dsStuffError b
  | .passSame => .dsPassSame b
  | .passToggle => .dsPassToggle b

/-- The micro-operation of an engine row and its bit. -/
def EngOp.instr (op : EngOp) (b : Bit) : Instr :=
  match op with
  | .idleRecessive => .idleRecessive b
  | .idleSof => .idleSof b
  | .idBit => .idBit b
  | .idRtrSrr => .idRtrSrr b
  | .idIde => .idIde b
  | .idExtBit => .idExtBit b
  | .idExtRtr => .idExtRtr b
  | .cbFdf => .cbFdf b
  | .cbRes => .cbRes b
  | .ceFdf => .ceFdf b
  | .ceR0 => .ceR0 b
  | .caDlcClassic => .caDlcClassic b
  | .caBrs => .caBrs b
  | .caEsi => .caEsi b
  | .caDlcFd => .caDlcFd b
  | .dataBit => .dataBit b
  | .sbcFsb => .sbcFsb b
  | .sbcBit => .sbcBit b
  | .sbcLast => .sbcLast b
  | .crc15Bit => .crc15Bit b
  | .crc15Last => .crc15Last b
  | .crc17Fsb => .crc17Fsb b
  | .crc17Bit => .crc17Bit b
  | .crc17Last => .crc17Last b
  | .crc21Fsb => .crc21Fsb b
  | .crc21Bit => .crc21Bit b
  | .crc21Last => .crc21Last b
  | .crcdelBit => .crcdelBit b
  | .ackSlot => .ackSlot b
  | .ackDel => .ackDel b
  | .eofBit => .eofBit b
  | .ifsBit => .ifsBit b
  | .errBit => .errBit b

/-- The micro-operation of a CRC engine's step and its bit (41_crc_engines.md R131 to R133). -/
def CrcEngine.instr (e : CrcEngine) (b : Bit) : Instr :=
  match e with
  | .crc15 => .crc15Step b
  | .crc17 => .crc17Step b
  | .crc21 => .crc21Step b

/-- The decoder: total on any selector, rejecting by name (30_encoding.md R90, R95). -/
def decode : Selector → Except Reject Instr
  | .host w raw =>
    if wordMatches w 0b1000 0b1000 then .ok .reset
    else if wordMatches w 0b0000 0b1000 then .ok (.tick raw)
    else .error .noHostRow
  | .edge w => if wordMatches w 0b0100 0b1100 then .ok .clkResync else .error .noEdge
  | .due w v => if wordMatches w 0b0010 0b1010 then .ok (.clkSample v) else .error .noBitDue
  | .ds w b =>
    match decodeDs w with
    | some op => .ok (op.instr b)
    | none => .error .noDestufferRow
  | .eng w idx dlc =>
    match decodeEng w idx dlc with
    | some op => .ok (op.instr (w.getLsbD 0))
    | none => if w.extractLsb' 4 4 == 15#4 then .error .unwrittenState else .error .slotOutOfRange
  | .rate w idx =>
    if wordMatches w 0x49 0xFD && (SlotCond.slots 1 1).holds w idx 0 then .ok .clkSwitchUp
    else if wordMatches w 0xA3 0xF3 then .ok .clkSwitchDown
    else .error .noSwitch
  | .call e b => .ok (e.instr b)

/-! ## The encoder

A micro-operation has many selectors: the bits its mask leaves free, the slots its condition admits. A
`Slot` says which; `encodeAt` builds the selector from the row tables above. -/

/-- The part of a selector that a row leaves open. -/
structure Slot where
  /-- Bits of a HOST or DS word outside the row's mask. -/
  nibble : BitVec 4
  /-- Bits of an ENG word outside the row's mask, bit 0 apart. -/
  octet : BitVec 8
  /-- `fieldIdx` before the bit. -/
  fieldIdx : BitVec 10
  /-- The DLC register. -/
  dlc : BitVec 4
  deriving DecidableEq, Repr

/-- A HOST or DS word: the row's match, and `free` outside its mask. -/
def encodeNibble (pat mask free : BitVec 4) : BitVec 4 := pat ||| (free &&& ~~~mask)

/-- An ENG word: the row's match, the bit where the row leaves bit 0 open, and `free` in the other bits
outside the mask. -/
def encodeOctet (pat mask free : BitVec 8) (b : Bit) : BitVec 8 :=
  pat ||| (free &&& ~~~mask &&& 0xFE) ||| (bitAs 8 b &&& ~~~mask)

/-- The DS selector of a destuffer row. -/
def encodeDs (op : DsOp) (b : Bit) (s : Slot) : Selector :=
  .ds (encodeNibble (dsRow op).pat (dsRow op).mask s.nibble) b

/-- The ENG selector of an engine row. -/
def encodeEng (op : EngOp) (b : Bit) (s : Slot) : Selector :=
  .eng (encodeOctet (engRow op).pat (engRow op).mask s.octet b) s.fieldIdx s.dlc

/-- Whether the row's condition admits a slot. -/
def engAdmits (op : EngOp) (b : Bit) (s : Slot) : Bool :=
  (engRow op).cond.holds (encodeOctet (engRow op).pat (engRow op).mask s.octet b) s.fieldIdx s.dlc

/-- The engine operation and bit of a micro-operation that is an engine row. -/
def Instr.engOp? : Instr → Option (EngOp × Bit)
  | .idleRecessive b => some (.idleRecessive, b)
  | .idleSof b => some (.idleSof, b)
  | .idBit b => some (.idBit, b)
  | .idRtrSrr b => some (.idRtrSrr, b)
  | .idIde b => some (.idIde, b)
  | .idExtBit b => some (.idExtBit, b)
  | .idExtRtr b => some (.idExtRtr, b)
  | .cbFdf b => some (.cbFdf, b)
  | .cbRes b => some (.cbRes, b)
  | .ceFdf b => some (.ceFdf, b)
  | .ceR0 b => some (.ceR0, b)
  | .caDlcClassic b => some (.caDlcClassic, b)
  | .caBrs b => some (.caBrs, b)
  | .caEsi b => some (.caEsi, b)
  | .caDlcFd b => some (.caDlcFd, b)
  | .dataBit b => some (.dataBit, b)
  | .sbcFsb b => some (.sbcFsb, b)
  | .sbcBit b => some (.sbcBit, b)
  | .sbcLast b => some (.sbcLast, b)
  | .crc15Bit b => some (.crc15Bit, b)
  | .crc15Last b => some (.crc15Last, b)
  | .crc17Fsb b => some (.crc17Fsb, b)
  | .crc17Bit b => some (.crc17Bit, b)
  | .crc17Last b => some (.crc17Last, b)
  | .crc21Fsb b => some (.crc21Fsb, b)
  | .crc21Bit b => some (.crc21Bit, b)
  | .crc21Last b => some (.crc21Last, b)
  | .crcdelBit b => some (.crcdelBit, b)
  | .ackSlot b => some (.ackSlot, b)
  | .ackDel b => some (.ackDel, b)
  | .eofBit b => some (.eofBit, b)
  | .ifsBit b => some (.ifsBit, b)
  | .errBit b => some (.errBit, b)
  | .reset | .tick _ | .clkResync | .clkSample _ | .clkSwitchUp | .clkSwitchDown => none
  | .crc15Step _ | .crc17Step _ | .crc21Step _ => none
  | .dsDirect _ | .dsForced _ | .dsStuff _ | .dsStuffError _ | .dsPassSame _ | .dsPassToggle _ => none

/-- The destuffer operation and bit of a micro-operation that is a destuffer row. -/
def Instr.dsOp? : Instr → Option (DsOp × Bit)
  | .dsDirect b => some (.direct, b)
  | .dsForced b => some (.forced, b)
  | .dsStuff b => some (.stuff, b)
  | .dsStuffError b => some (.stuffError, b)
  | .dsPassSame b => some (.passSame, b)
  | .dsPassToggle b => some (.passToggle, b)
  | .reset | .tick _ | .clkResync | .clkSample _ | .clkSwitchUp | .clkSwitchDown => none
  | .crc15Step _ | .crc17Step _ | .crc21Step _ => none
  | .idleRecessive _ | .idleSof _ | .idBit _ | .idRtrSrr _ | .idIde _ | .idExtBit _ => none
  | .idExtRtr _ | .cbFdf _ | .cbRes _ | .ceFdf _ | .ceR0 _ | .caDlcClassic _ | .caBrs _ => none
  | .caEsi _ | .caDlcFd _ | .dataBit _ | .sbcFsb _ | .sbcBit _ | .sbcLast _ => none
  | .crc15Bit _ | .crc15Last _ | .crc17Fsb _ | .crc17Bit _ | .crc17Last _ => none
  | .crc21Fsb _ | .crc21Bit _ | .crc21Last _ | .crcdelBit _ | .ackSlot _ | .ackDel _ => none
  | .eofBit _ | .ifsBit _ | .errBit _ => none

/-- Whether a slot is one of the micro-operation's: an engine row's condition holds in it, and
CLK_SWITCH_UP is called in slot `i = 1` (CA_BRS); every other row admits every slot. -/
def admits (i : Instr) (s : Slot) : Bool :=
  match i.engOp? with
  | some (op, b) => engAdmits op b s
  | none => if i = .clkSwitchUp then s.fieldIdx == 0 else true

/-- The selector of a micro-operation in a slot. -/
def encodeAt (i : Instr) (s : Slot) : Selector :=
  match i with
  | .reset => .host (encodeNibble 0b1000 0b1000 s.nibble) (s.octet.getLsbD 0)
  | .tick raw => .host (encodeNibble 0b0000 0b1000 s.nibble) raw
  | .clkResync => .edge (encodeNibble 0b0100 0b1100 s.nibble)
  | .clkSample v => .due (encodeNibble 0b0010 0b1010 s.nibble) v
  | .clkSwitchUp => .rate (encodeOctet 0x49 0xFD s.octet false) s.fieldIdx
  | .clkSwitchDown => .rate (encodeOctet 0xA3 0xF3 s.octet false) s.fieldIdx
  | .crc15Step b => .call .crc15 b
  | .crc17Step b => .call .crc17 b
  | .crc21Step b => .call .crc21 b
  | .dsDirect b => encodeDs .direct b s
  | .dsForced b => encodeDs .forced b s
  | .dsStuff b => encodeDs .stuff b s
  | .dsStuffError b => encodeDs .stuffError b s
  | .dsPassSame b => encodeDs .passSame b s
  | .dsPassToggle b => encodeDs .passToggle b s
  | .idleRecessive b => encodeEng .idleRecessive b s
  | .idleSof b => encodeEng .idleSof b s
  | .idBit b => encodeEng .idBit b s
  | .idRtrSrr b => encodeEng .idRtrSrr b s
  | .idIde b => encodeEng .idIde b s
  | .idExtBit b => encodeEng .idExtBit b s
  | .idExtRtr b => encodeEng .idExtRtr b s
  | .cbFdf b => encodeEng .cbFdf b s
  | .cbRes b => encodeEng .cbRes b s
  | .ceFdf b => encodeEng .ceFdf b s
  | .ceR0 b => encodeEng .ceR0 b s
  | .caDlcClassic b => encodeEng .caDlcClassic b s
  | .caBrs b => encodeEng .caBrs b s
  | .caEsi b => encodeEng .caEsi b s
  | .caDlcFd b => encodeEng .caDlcFd b s
  | .dataBit b => encodeEng .dataBit b s
  | .sbcFsb b => encodeEng .sbcFsb b s
  | .sbcBit b => encodeEng .sbcBit b s
  | .sbcLast b => encodeEng .sbcLast b s
  | .crc15Bit b => encodeEng .crc15Bit b s
  | .crc15Last b => encodeEng .crc15Last b s
  | .crc17Fsb b => encodeEng .crc17Fsb b s
  | .crc17Bit b => encodeEng .crc17Bit b s
  | .crc17Last b => encodeEng .crc17Last b s
  | .crc21Fsb b => encodeEng .crc21Fsb b s
  | .crc21Bit b => encodeEng .crc21Bit b s
  | .crc21Last b => encodeEng .crc21Last b s
  | .crcdelBit b => encodeEng .crcdelBit b s
  | .ackSlot b => encodeEng .ackSlot b s
  | .ackDel b => encodeEng .ackDel b s
  | .eofBit b => encodeEng .eofBit b s
  | .ifsBit b => encodeEng .ifsBit b s
  | .errBit b => encodeEng .errBit b s

/-- The first `fieldIdx` a condition admits. -/
def SlotCond.first : SlotCond → BitVec 10
  | .always => 0
  | .slots lo _ => BitVec.ofNat 10 (lo - 1)
  | .fixedStuff => 0
  | .carrying _ => 1
  | .withinData => 0

/-- The first slot of a micro-operation: free bits 0, the smallest `fieldIdx` its row admits, and the
smallest DLC with a data field. -/
def firstSlot (i : Instr) : Slot where
  nibble := 0
  octet := 0
  fieldIdx := match i.engOp? with
    | some (op, _) => (engRow op).cond.first
    | none => 0
  dlc := 1

/-- The selector of a micro-operation in its first slot. -/
def encode (i : Instr) : Selector := encodeAt i (firstSlot i)

/-! ## Table words

opcode_table.json gives a row a 4-bit or 8-bit selector word without the label of its format, and words
of different formats coincide (0b1000 is RESET in the HOST format, DS_PASS_TOGGLE in the DS format and an
IDLE word in the ENG format). `tableSelector` lays a bare word out as a selector: which of the coinciding
formats it takes is DESIGN CHOICE, safe, notes/assumptions/12.md. The registers of the condition column
are those of the first slot of a field. -/

/-- The selector a bare table word is laid out as. Where the word carries no operand bit it is 0, but for
TICK, whose raw level is the idle (recessive) one of configuration K32. -/
def tableSelector (nbits w : Nat) : Option Selector :=
  let nib : BitVec 4 := BitVec.ofNat 4 w
  let oct : BitVec 8 := BitVec.ofNat 8 w
  if 256 ≤ w then none
  else if nbits = 0 then some (.call .crc15 false)
  else if w = 0 ∨ w = 8 then some (.host nib true)
  else if w = 1 then some (.eng oct 0 1)
  else if w = 2 ∨ w = 3 then some (.due nib false)
  else if 4 ≤ w ∧ w < 8 then some (.edge nib)
  else if 9 ≤ w ∧ w < 16 then some (.ds nib false)
  else if wordMatches oct 0x49 0xFD || wordMatches oct 0xA3 0xF3 then some (.rate oct 0)
  else some (.eng oct 0 1)

/-- The micro-operation the decoder reads from a bare table word. -/
def decodeTableWord (nbits w : Nat) : Option Instr :=
  match tableSelector nbits w with
  | some sel =>
    match decode sel with
    | .ok i => some i
    | .error _ => none
  | none => none

end Sys2Proof
end

