-- ==== Sys2Proof/Config.lean ====
section
/-! DEFINITION. The configuration inputs of the block, 00_scope.md R8 and 10_state.md R44. They are
parameters of a run, not registers; the host drives them as ports in every tick. Their legal values and
the periods derived from them are in Machine/Timing.lean. No constant here is opaque: the spec leaves no
value of the block open. -/

namespace Sys2Proof

/-- The configuration ports with the widths of 10_state.md R44. -/
structure Config where
  /-- `SAMPLE_RATE`, samples per second. -/
  sampleRate : BitVec 32
  /-- `ARB_RATE`, arbitration bit rate. -/
  arbRate : BitVec 32
  /-- `DATA_RATE`, data bit rate, 0 when not configured. -/
  dataBitRate : BitVec 32
  /-- `SP_ARB`, arbitration sample point in percent. -/
  spArb : BitVec 7
  /-- `SP_DATA`, data sample point in percent. -/
  spData : BitVec 7
  /-- `INVERT`: true when dominant is logic high. -/
  invert : Bit
  /-- `ISO`: true for the CAN-FD ISO protocol. -/
  iso : Bit
  deriving DecidableEq, Repr

/-- Configuration K32 of 95_test_vectors.md (the worked example of 10_state.md R45): the values
`State.reset` holds on the configuration ports. DESIGN CHOICE, unsafe: the spec gives the ports no reset
value (10_state.md R44), notes/assumptions/2.md. -/
def Config.k32 : Config where
  sampleRate := 4000000
  arbRate := 125000
  dataBitRate := 500000
  spArb := 75
  spData := 75
  invert := false
  iso := true

end Sys2Proof
end

