-- ==== Sys2Proof/Machine/Timing.lean ====
section
/-! DEFINITION. What the configuration means: its legal values (10_state.md R44), the derived periods
(R45), half a period (00_scope.md R12) and the blended length of a transition bit (47_bit_clock.md R213).
Sample arithmetic is on unbounded integers (00_scope.md R9). -/

namespace Sys2Proof

/-- The legal configurations of 10_state.md R44. -/
def Config.legal (cfg : Config) : Bool :=
  1 ≤ cfg.arbRate.toNat && cfg.arbRate.toNat ≤ cfg.sampleRate.toNat &&
  cfg.dataBitRate.toNat ≤ cfg.sampleRate.toNat &&
  cfg.spArb.toNat ≤ 100 && cfg.spData.toNat ≤ 100

/-- `T_ARB`, samples per arbitration bit (10_state.md R45). -/
def Config.tArb (cfg : Config) : Nat := cfg.sampleRate.toNat / cfg.arbRate.toNat

/-- `T_DATA`, samples per data bit (10_state.md R45). -/
def Config.tData (cfg : Config) : Nat :=
  if cfg.dataBitRate = 0 then cfg.tArb else cfg.sampleRate.toNat / cfg.dataBitRate.toNat

/-- `half(T) = T div 2` (00_scope.md R12). -/
def half (t : Nat) : Nat := t / 2

/-- The period of a rate regime: `T_DATA` when `up`, else `T_ARB` (10_state.md R22). -/
def Config.period (cfg : Config) (up : Bit) : Nat := if up then cfg.tData else cfg.tArb

/-- The sample point of a rate regime in percent (47_bit_clock.md R214). -/
def Config.samplePoint (cfg : Config) (up : Bit) : Nat :=
  if up then cfg.spData.toNat else cfg.spArb.toNat

/-- `L(To, Tn, spO, spN)`, the blended length of a transition bit, floor division (47_bit_clock.md R213). -/
def blend (tOld tNew spO spN : Nat) : Int :=
  ((spO : Int) * tOld + (100 - (spN : Int)) * tNew) / 100

/-- The length of the transition bit of a switch: from the other regime into regime `up`
(47_bit_clock.md R214). -/
def Config.transition (cfg : Config) (up : Bit) : Int :=
  blend (cfg.period !up) (cfg.period up) (cfg.samplePoint !up) (cfg.samplePoint up)

/-- The transition-bit condition of 70_reset_and_hazards.md R272, which the host must meet for frames
with BRS to be decoded meaningfully. Nothing is refused without it. -/
def Config.meetsTransitionCondition (cfg : Config) : Bool :=
  (half cfg.tArb : Int) < cfg.transition true && (half cfg.tData : Int) < cfg.transition false

end Sys2Proof
end

