-- ==== Sys2Proof/Machine/State.lean ====
section
/-! DEFINITION. The state of the block as plain data: the register groups of 10_state.md R20, the ports
of 40_datapath.md R120, the reasons a step can stop, and the state after reset
(70_reset_and_hazards.md R260). -/

namespace Sys2Proof.Machine

/-- A field record, 20_memory.md R70. -/
structure FieldRec where
  kind : RecKind
  p1 : BitVec 32
  p2 : BitVec 32
  /-- First sample of the extent. -/
  startAt : Int
  /-- One past the last sample of the extent. -/
  endAt : Int
  deriving DecidableEq, Repr

/-- A mark, 20_memory.md R72: its kind and the centre sample of the bit it annotates. -/
structure Mark where
  kind : MarkKind
  sample : Nat
  deriving DecidableEq, Repr

/-- The input ports of one tick, 40_datapath.md R120. -/
structure PortIn where
  /-- Synchronous reset. -/
  rst : Bit
  /-- The raw channel level of the tick's sample. -/
  raw : Bit
  /-- The configuration ports. -/
  cfg : Config
  deriving DecidableEq, Repr

/-- The state of the block. `cfg` and `input` are the input ports (notes/assumptions/1.md, 2.md),
`recOut` and `markOut` the output ports with their valid strobes (notes/assumptions/6.md); every other
field is a register of 10_state.md. -/
structure State where
  /-- The configuration ports, 10_state.md R44. -/
  cfg : Config
  /-- The ticks the host has yet to present, first one next (20_memory.md R60 (a)). -/
  input : List PortIn
  /-- The record port: `none` when `recValid = 0`. -/
  recOut : Option FieldRec
  /-- The mark port: `none` when `markValid = 0`. -/
  markOut : Option Mark
  /-- `s`, the sample index of the current tick, R21; unbounded (notes/assumptions/7.md). -/
  sampleIdx : Nat
  /-- The logical level of the previous tick's sample, R21. -/
  prevLevel : Bit
  /-- The sample index at or after which the next bit is taken, R21. -/
  nextCenter : Int
  /-- Whether the data bit rate is in force, R21. -/
  dataRate : Bit
  /-- Whether the destuffer is active, R23. -/
  dsActive : Bit
  /-- Length of the current run of equal bits, R23. -/
  runLength : BitVec 3
  /-- Polarity of the current run, R23. -/
  lastBit : Bit
  /-- Dynamic stuff bits removed since SOF, R23. -/
  stuffCount : BitVec 8
  /-- The CRC-15 accumulator, R25. -/
  crc15 : BitVec 15
  /-- The CRC-17 accumulator, R25. -/
  crc17 : BitVec 17
  /-- The CRC-21 accumulator, R25. -/
  crc21 : BitVec 21
  /-- The engine state, R26. -/
  state : EngState
  /-- Bits of the current field already consumed, R26. -/
  fieldIdx : BitVec 10
  /-- The identifier, R28. -/
  identifier : BitVec 29
  /-- RTR or SRR, R28. -/
  rtr : Bit
  /-- The IDE bit, R28. -/
  ide : Bit
  /-- The frame type, R28. -/
  frameType : FrameType
  /-- The BRS bit, R28. -/
  brs : Bit
  /-- The ESI bit, R28. -/
  esi : Bit
  /-- The data length code, R28. -/
  dlc : BitVec 4
  /-- The 64-byte data buffer, R31, as canonical cells (notes/assumptions/8.md). -/
  buf : List Host.Cell
  /-- The received CRC value, R28. -/
  crcRx : BitVec 21
  /-- The received Gray count and parity bit, R28. -/
  sbcBits : BitVec 4
  /-- The ACK slot, R28. -/
  ackSlot : Bit
  /-- The previous bit delivered by the clock, R28. -/
  prevBit : Bit
  /-- Sample index at which the current field's record starts, R33. -/
  fieldStart : Int
  /-- Consecutive recessive bits seen in DECODER_ERROR, R34. -/
  errCount : BitVec 4
  /-- Cause of the last error, R34. -/
  errCause : ErrCause
  /-- State in which the last error was detected, R34. -/
  errState : EngState
  deriving DecidableEq, Repr

/-- Why the model stops with a fault. -/
inductive Fault where
  /-- A data buffer index of 64 or more, which the 64-byte buffer of 10_state.md R31 does not have.
  Raised by DATA_BIT run on its own, never inside CLK_SAMPLE, whose selection keeps the index below 64;
  safe. notes/assumptions/8.md -/
  | bufferIndex (k : Nat)
  deriving DecidableEq, Repr

/-- Why the model admits no further step. -/
inductive Refusal where
  /-- An instruction without a meaning in this model; raised by no arm of `exec`; safe. -/
  | notModelled (mnemonic : String)
  /-- A configuration outside 10_state.md R44 (93_implementation_defined.md U5, U13: refuse). Raised by
  RESET and TICK; safe. notes/assumptions/4.md -/
  | illegalConfig
  /-- A configuration changed while `rst = 0` (70_reset_and_hazards.md R266, U4: refuse). Raised by
  `step` before TICK; safe. notes/assumptions/4.md -/
  | configChangedWithoutReset
  /-- Register values that select no row of 30_encoding.md R90 (U6: refuse). Raised by CLK_SAMPLE and
  TICK; unreachable from reset; safe. notes/assumptions/5.md -/
  | noOperationSelected
  /-- `runLength` 6 or 7, never written (10_state.md R24, U6: refuse). Raised by CLK_SAMPLE and TICK;
  unreachable from reset; safe. notes/assumptions/5.md -/
  | runLengthOutOfRange
  /-- The host presents no further tick (40_datapath.md R124). Raised by `step`; safe.
  notes/assumptions/3.md -/
  | noSample
  deriving DecidableEq, Repr

/-- What a meaning answers. -/
abbrev Result := Host.Outcome State Fault Refusal

/-- The register values RESET loads, 70_reset_and_hazards.md R260, under configuration `cfg`, with
nothing on the outputs and `input` still to be presented. -/
def State.resetWith (cfg : Config) (input : List PortIn) : State where
  cfg := cfg
  input := input
  recOut := none
  markOut := none
  sampleIdx := 0
  prevLevel := recessive
  nextCenter := half cfg.tArb
  dataRate := false
  dsActive := false
  runLength := 0
  lastBit := recessive
  stuffCount := 0
  crc15 := 0
  crc17 := 0
  crc21 := 0
  state := .idle
  fieldIdx := 0
  identifier := 0
  rtr := false
  ide := false
  frameType := .data
  brs := false
  esi := false
  dlc := 0
  buf := []
  crcRx := 0
  sbcBits := 0
  ackSlot := recessive
  prevBit := recessive
  fieldStart := 0
  errCount := 0
  errCause := .none
  errState := .idle

/-- The block right after reset, 70_reset_and_hazards.md R260. The configuration ports hold K32 (DESIGN
CHOICE, notes/assumptions/2.md) and the host has presented nothing (notes/assumptions/1.md); a run starts
here, not at power-on (R261, notes/assumptions/14.md). -/
def State.reset : State := State.resetWith Config.k32 []

end Sys2Proof.Machine
end

