-- ==== Sys2Proof/Machine/Ops.lean ====
section
/-! DEFINITION. The named operations the meanings share: sequencing of outcomes, the data buffer, the
output primitives of 00_scope.md R14, moves of the engine's program counter, the CRC step
(41_crc_engines.md R130), the bit-rate switch (47_bit_clock.md R214), and taking an exception
(60_exceptions.md R236) with the return from it (R237). -/

namespace Sys2Proof.Machine

/-- Run `f` on the next state; a fault or a refusal ends the sequence (00_scope.md R13). -/
def andThen (o : Result) (f : State → Result) : Result :=
  match o with
  | .next s => f s
  | .fault r => .fault r
  | .refused r => .refused r

/-! ## The current bit (00_scope.md R15): its centre `c` is `s` (R211), its period `T` that of R22 -/

/-- The period in force, 10_state.md R22. -/
def State.period (s : State) : Nat := s.cfg.period s.dataRate

/-- `bitStart = c - half(T)`, 00_scope.md R15. -/
def State.bitStart (s : State) : Int := (s.sampleIdx : Int) - half s.period

/-- `bitEnd = bitStart + T`, 00_scope.md R15. -/
def State.bitEnd (s : State) : Int := s.bitStart + s.period

/-! ## The data buffer (10_state.md R31, 20_memory.md R60 (b))

Canonical form: addresses strictly rising, no cell equal to the value an unlisted index reads as. -/

/-- What an unlisted index reads as: the reset and SOF contents of the buffer, 0 (10_state.md R28). -/
def bufDefault : Byte := 0

/-- Number of bytes of the buffer, 10_state.md R31. -/
def bufSize : Nat := 64

/-- The byte at an index. -/
def memRead : List Host.Cell → Nat → Byte
  | [], _ => bufDefault
  | (a, v) :: m, k => if k = a then v else memRead m k

/-- The cells after writing a byte, in canonical form. -/
def memWrite : List Host.Cell → Nat → Byte → List Host.Cell
  | [], k, v => if v = bufDefault then [] else [(k, v)]
  | (a, w) :: m, k, v =>
    if k < a then (if v = bufDefault then (a, w) :: m else (k, v) :: (a, w) :: m)
    else if k = a then (if v = bufDefault then m else (k, v) :: m)
    else (a, w) :: memWrite m k v

/-- Cells from index `lo` on, strictly rising, below `bufSize`, none holding the default. -/
def memWfFrom (lo : Nat) : List Host.Cell → Bool
  | [] => true
  | (a, v) :: m => decide (lo ≤ a) && decide (a < bufSize) && decide (v ≠ bufDefault) && memWfFrom (a + 1) m

/-- The canonical form of the data buffer. -/
def Memory.wf (m : List Host.Cell) : Bool := memWfFrom 0 m

/-- `BufRead(k)`, 00_scope.md R14. -/
def State.bufRead (s : State) (k : Nat) : Byte := memRead s.buf k

/-- `BufWrite(k, v)`, 00_scope.md R14; an index of 64 or more does not exist. -/
def bufWrite (k : Nat) (v : Byte) (s : State) : Result :=
  if k < bufSize then .next { s with buf := memWrite s.buf k v } else .fault (.bufferIndex k)

/-! ## Output primitives (00_scope.md R14, 20_memory.md R70, R72) -/

/-- Both valid strobes 0, the first line of TICK and RESET (40_datapath.md R121). -/
def clearOutputs (s : State) : State := { s with recOut := none, markOut := none }

/-- `mark(k)`: one mark at the centre of the current bit. -/
def putMark (k : MarkKind) (s : State) : State := { s with markOut := some ⟨k, s.sampleIdx⟩ }

/-- `markBit(b)`, 43_engine_header.md. -/
def markBit (b : Bit) (s : State) : State := putMark (if b then .one else .zero) s

/-- `emit(kind, p1, p2, end)`: one record from `fieldStart` to `endAt`, then `fieldStart <- end`. -/
def emit (kind : RecKind) (p1 p2 : BitVec 32) (endAt : Int) (s : State) : State :=
  { s with recOut := some ⟨kind, p1, p2, s.fieldStart, endAt⟩, fieldStart := endAt }

/-! ## The engine's program counter (10_state.md R26, R27) -/

/-- Enter a state at its first bit. -/
def goto (st : EngState) (s : State) : State := { s with state := st, fieldIdx := 0 }

/-- `fieldIdx <- fieldIdx + 1`. -/
def advance (s : State) : State := { s with fieldIdx := s.fieldIdx + 1 }

/-- `(r << 1) | b`, masked: one received bit shifted in, MSB first (20_memory.md R61). -/
def shiftIn {w : Nat} (mask r : BitVec w) (b : Bit) : BitVec w := ((r <<< 1) ||| bitAs w b) &&& mask

/-- Set the field index to a slot number the rule writes as a literal. -/
def setFieldIdx (i : BitVec 10) (s : State) : State := { s with fieldIdx := i }

/-! ## CRC engines (41_crc_engines.md R130) -/

/-- `crcStep_W(acc, b)`. -/
def crcStep {w : Nat} (poly acc : BitVec w) (b : Bit) : BitVec w :=
  if b ^^ acc.msb then (acc <<< 1) ^^^ poly else acc <<< 1

/-- The polynomials, 41_crc_engines.md R130. -/
def poly15 : BitVec 15 := 0x4599
def poly17 : BitVec 17 := 0x1685B
def poly21 : BitVec 21 := 0x102899

/-- The seeds, 41_crc_engines.md R134. -/
def seed15 : BitVec 15 := 0
def seed17 (iso : Bit) : BitVec 17 := if iso then 0x10000 else 0
def seed21 (iso : Bit) : BitVec 21 := if iso then 0x100000 else 0

/-- One step of an engine on its register. -/
def stepCrc15 (b : Bit) (s : State) : State := { s with crc15 := crcStep poly15 s.crc15 b }
def stepCrc17 (b : Bit) (s : State) : State := { s with crc17 := crcStep poly17 s.crc17 b }
def stepCrc21 (b : Bit) (s : State) : State := { s with crc21 := crcStep poly21 s.crc21 b }

/-! ## The bit-rate switch (47_bit_clock.md R214) -/

/-- `rateSwitch(up)`: rebase the cursor to the blended end of the transition bit, then one new period. -/
def rateSwitch (up : Bit) (s : State) : State :=
  { s with
    nextCenter := (s.sampleIdx : Int) - half (s.cfg.period !up) + s.cfg.transition up
      - half (s.cfg.period up) + s.cfg.period up
    dataRate := up }

/-! ## Taking an exception and returning from it (60_exceptions.md R236, R237) -/

/-- `raise DecoderError(cause)`, the error entry. -/
def raiseError (cause : ErrCause) (s : State) : State :=
  { s with
    errState := s.state
    state := .decoderError
    dsActive := false
    errCount := 0
    errCause := cause
    dataRate := false
    fieldIdx := 0 }

/-- Return from DECODER_ERROR: the Error record (30_encoding.md R82), then IDLE (45_engine_trailer.md
R198). -/
def returnFromError (s : State) : State :=
  { emit .error (s.errCause.code.setWidth 32) (s.errState.code.setWidth 32) s.bitEnd s with
    state := .idle, errCount := 0, fieldIdx := 0 }

/-! ## Frame routing (44_engine_payload.md R171) -/

/-- The FD CRC field of a frame, 10_state.md R30. -/
def fdCrcState (dlc : BitVec 4) : EngState := if dlc.toNat ≤ 10 then .crc17 else .crc21

/-- `byteCount()` of the frame in progress. -/
def State.byteCount (s : State) : Nat := Sys2Proof.byteCount s.frameType s.dlc

/-- `routeAfterPayload()`. -/
def routeAfterPayload (s : State) : State :=
  match s.frameType with
  | .data | .remote => goto .crc15 s
  | .fdData =>
    if s.cfg.iso then goto .sbc s
    else { goto (fdCrcState s.dlc) s with dsActive := false }

/-! ## The input ports (40_datapath.md R120, 70_reset_and_hazards.md R266) -/

/-- Run `f` under a legal configuration only (10_state.md R44). -/
def underLegalConfig (s : State) (f : State → Result) : Result :=
  if s.cfg.legal then f s else .refused .illegalConfig

/-- Take the ports of one tick: the configuration may differ from the one in force only in a reset tick. -/
def acceptPorts (p : PortIn) (rest : List PortIn) (s : State) : Result :=
  if p.rst = false ∧ p.cfg ≠ s.cfg then .refused .configChangedWithoutReset
  else .next { s with cfg := p.cfg, input := rest }

end Sys2Proof.Machine
end

