-- ==== Sys2Proof/Machine/CrcEngines.lean ====
section
/-! DEFINITION. The CRC engine operations, 41_crc_engines.md. Other operations call them. -/

namespace Sys2Proof.Machine

/-- CRC15_STEP, 41_crc_engines.md R131. -/
def execCrc15Step (b : Bit) (s : State) : Result := .next (stepCrc15 b s)

/-- CRC17_STEP, 41_crc_engines.md R132. -/
def execCrc17Step (b : Bit) (s : State) : Result := .next (stepCrc17 b s)

/-- CRC21_STEP, 41_crc_engines.md R133. -/
def execCrc21Step (b : Bit) (s : State) : Result := .next (stepCrc21 b s)

end Sys2Proof.Machine
end

