-- ==== Sys2Proof/Machine/Flags.lean ====
section
/-! DEFINITION. The one-bit conditions of the block, computed from registers: clock conditions
(47_bit_clock.md), destuffer conditions (42_destuffer.md R140), fixed-form and fixed-stuff checks, and the
flags reported in records (30_encoding.md R82). None of them is stored (10_state.md R35). -/

namespace Sys2Proof.Machine

/-- The logical level of a raw level, `raw XOR INVERT` (00_scope.md R11). -/
def logicalLevel (cfg : Config) (raw : Bit) : Bit := raw ^^ cfg.invert

/-- An edge: the logical level differs from the previous tick's (47_bit_clock.md R210). -/
def isEdge (s : State) (v : Bit) : Bool := v != s.prevLevel

/-- A bit is due: `s ≥ nextCenter` (47_bit_clock.md R211). -/
def isDue (s : State) : Bool := decide (s.nextCenter ≤ (s.sampleIdx : Int))

/-- The forced stuff bit slot: SBC, `fieldIdx = 0` (42_destuffer.md R140). -/
def forcedSlot (s : State) : Bool := s.state == .sbc && s.fieldIdx == 0

/-- `runLength = 5` (42_destuffer.md R140). -/
def runOfFive (s : State) : Bool := s.runLength == 5

/-- `runLength` 6 or 7, which no rule writes (10_state.md R24). -/
def runLengthIllegal (s : State) : Bool := decide (5 < s.runLength.toNat)

/-- The states in which the engine feeds CRC-15 (43_engine_header.md R148). -/
def feedsCrc15 : EngState → Bool
  | .identifier | .controlBase | .controlExtended | .controlAfterR0 | .data | .crc15 => true
  | .idle | .sbc | .crc17 | .crc21 | .crcdel | .ack | .endOfFrame | .intermission => false
  | .decoderError => false

/-- `GRAY_DECODE`, 44_engine_payload.md R174. -/
def grayDecode (g : BitVec 3) : BitVec 3 :=
  [0#3, 1#3, 3#3, 2#3, 7#3, 6#3, 4#3, 5#3].getD g.toNat 0#3

/-- The decoded stuff bit count, `GRAY_DECODE[sbcBits[3:1]]` (44_engine_payload.md R174). -/
def sbcCount (sbcBits : BitVec 4) : BitVec 3 := grayDecode (sbcBits.extractLsb' 1 3)

/-- `parityErr`: odd parity of the four received bits (44_engine_payload.md R174). -/
def sbcParityErr (sbcBits : BitVec 4) : Bool :=
  sbcBits.getLsbD 3 ^^ sbcBits.getLsbD 2 ^^ sbcBits.getLsbD 1 ^^ sbcBits.getLsbD 0

/-- `countErr`: the decoded count differs from `stuffCount mod 8` (44_engine_payload.md R174). -/
def sbcCountErr (sbcBits : BitVec 4) (stuffCount : BitVec 8) : Bool :=
  (sbcCount sbcBits).toNat != stuffCount.toNat % 8

/-- Two flags as a payload: bit 0 and bit 1, other bits 0 (30_encoding.md R82). -/
def flagPair (bit0 bit1 : Bool) : BitVec 32 := bitAs 32 bit0 ||| (bitAs 32 bit1 <<< 1)

end Sys2Proof.Machine
end

