-- ==== Sys2Proof/Machine/Operands.lean ====
section
/-! DEFINITION. The selector words gathered from the registers, 30_encoding.md R95: what the decoder is
given in place of a fetched instruction word. The operand of a selected operation is the bit that goes
with the word (00_scope.md R15). -/

namespace Sys2Proof.Machine

/-- The HOST word: `[3]` rst, `[2]` edge, `[1]` bit due, `[0]` 0. -/
def hostWord (rst edge due : Bit) : BitVec 4 :=
  BitVec.ofNat 4 (8 * rst.toNat + 4 * edge.toNat + 2 * due.toNat)

/-- CLK_RESYNC's effect on the state, 47_bit_clock.md R210. -/
def resync (s : State) : State := { s with nextCenter := (s.sampleIdx : Int) + half s.period }

/-- The state in which the due test of a tick is made: after CLK_RESYNC, 40_datapath.md R121. -/
def afterResync (v : Bit) (s : State) : State := if isEdge s v then resync s else s

/-- The HOST word of a tick in state `s` with the port values `p`; due is read after CLK_RESYNC. -/
def hostWordOf (p : PortIn) (s : State) : BitVec 4 :=
  let v := logicalLevel p.cfg p.raw
  hostWord p.rst (isEdge s v) (isDue (afterResync v s))

/-- The selector of the host-level operation of a tick. -/
def hostSelector (p : PortIn) (s : State) : Selector := .host (hostWordOf p s) p.raw

/-- The DS word: `[3]` dsActive, `[2]` forced slot, `[1]` `runLength = 5`, `[0]` `b = lastBit`. -/
def dsWord (s : State) (b : Bit) : BitVec 4 :=
  BitVec.ofNat 4 (8 * s.dsActive.toNat + 4 * (forcedSlot s).toNat + 2 * (runOfFive s).toNat
    + (b == s.lastBit).toNat)

/-- The selector of the destuffer operation for a bit. -/
def dsSelector (s : State) (b : Bit) : Selector := .ds (dsWord s b) b

/-- The ENG word: `[7:4]` state, `[3:2]` frameType, `[1]` dataRate, `[0]` b. -/
def engWord (s : State) (b : Bit) : BitVec 8 :=
  BitVec.ofNat 8 (16 * s.state.code.toNat + 4 * s.frameType.code.toNat + 2 * s.dataRate.toNat + b.toNat)

/-- The selector of the engine operation for a bit. -/
def engSelector (s : State) (b : Bit) : Selector := .eng (engWord s b) s.fieldIdx s.dlc

/-- The selector of the rate switch that an engine operation may call. -/
def rateSelector (s : State) (b : Bit) : Selector := .rate (engWord s b) s.fieldIdx

end Sys2Proof.Machine
end

