-- ==== Sys2Proof/Machine/Destuffer.lean ====
section
/-! DEFINITION. The six destuffer operations, 42_destuffer.md R141 to R146. Their outcomes are
`DsOp.outcome`. -/

namespace Sys2Proof.Machine

/-- The run register group after a bit that starts a run (42_destuffer.md R141, R143, R146). -/
def startRun (b : Bit) (s : State) : State := { s with runLength := 1, lastBit := b }

/-- DS_DIRECT, 42_destuffer.md R142. -/
def execDsDirect (_b : Bit) (s : State) : Result := .next s

/-- DS_FORCED, 42_destuffer.md R141. -/
def execDsForced (b : Bit) (s : State) : Result := .next (startRun b s)

/-- DS_STUFF, 42_destuffer.md R143. -/
def execDsStuff (b : Bit) (s : State) : Result :=
  let s := startRun b (putMark .x s)
  andThen (execCrc17Step b { s with stuffCount := s.stuffCount + 1 }) (execCrc21Step b)

/-- DS_STUFF_ERROR, 42_destuffer.md R144. -/
def execDsStuffError (_b : Bit) (s : State) : Result := .next (raiseError .stuff (putMark .errorX s))

/-- DS_PASS_SAME, 42_destuffer.md R145. -/
def execDsPassSame (b : Bit) (s : State) : Result :=
  andThen (execCrc17Step b { s with runLength := s.runLength + 1 }) (execCrc21Step b)

/-- DS_PASS_TOGGLE, 42_destuffer.md R146. -/
def execDsPassToggle (b : Bit) (s : State) : Result :=
  andThen (execCrc17Step b (startRun b s)) (execCrc21Step b)

end Sys2Proof.Machine
end

