-- ==== Sys2Proof/Machine/BitClock.lean ====
section
/-! DEFINITION. The bit clock operations of 47_bit_clock.md other than CLK_SAMPLE, which runs the bit path
and stands in Machine/Datapath.lean. -/

namespace Sys2Proof.Machine

/-- CLK_RESYNC, 47_bit_clock.md R210. -/
def execClkResync (s : State) : Result := .next (resync s)

/-- CLK_SWITCH_UP, 47_bit_clock.md R215. -/
def execClkSwitchUp (s : State) : Result := .next (rateSwitch true s)

/-- CLK_SWITCH_DOWN, 47_bit_clock.md R216. -/
def execClkSwitchDown (s : State) : Result := .next (rateSwitch false s)

end Sys2Proof.Machine
end

