-- ==== Sys2Proof/Machine/EngineHeader.lean ====
section
/-! DEFINITION. The engine operations of the frame header, 43_engine_header.md R149 to R163. `crc15Feed`
(R148) has run before each of them. -/

namespace Sys2Proof.Machine

/-- A fixed-form bit that must be dominant: Dot and on to CONTROL_AFTER_R0, or ErrorDot and FORM
(43_engine_header.md R157, R159). -/
def reservedBit (b : Bit) (s : State) : State :=
  if b then raiseError .form (putMark .errorDot s) else goto .controlAfterR0 (putMark .dot s)

/-- A base or extended identifier bit (43_engine_header.md R151, R154). -/
def identifierBit (b : Bit) (s : State) : State :=
  let s := advance s
  markBit b { s with identifier := shiftIn 0x1FFFFFFF s.identifier b }

/-- A DLC bit (43_engine_header.md R160, R163). -/
def dlcBit (b : Bit) (s : State) : State :=
  let s := advance s
  markBit b { s with dlc := shiftIn 0xF s.dlc b }

/-- After the last DLC bit: DATA when the frame has data, else past it (R160, R163). -/
def afterControl (s : State) : State := if 0 < s.byteCount then goto .data s else routeAfterPayload s

/-- IDLE_RECESSIVE, 43_engine_header.md R149. -/
def execIdleRecessive (_b : Bit) (s : State) : Result := .next s

/-- IDLE_SOF, 43_engine_header.md R150. -/
def execIdleSof (b : Bit) (s : State) : Result :=
  .next (putMark .start
    { s with
      identifier := 0, rtr := false, ide := false, frameType := .data
      brs := false, esi := false, dlc := 0, crcRx := 0, sbcBits := 0, ackSlot := recessive
      buf := []
      stuffCount := 0
      crc15 := crcStep poly15 seed15 b
      crc17 := crcStep poly17 (seed17 s.cfg.iso) b
      crc21 := crcStep poly21 (seed21 s.cfg.iso) b
      dsActive := true, runLength := 1, lastBit := dominant
      fieldStart := s.bitStart
      fieldIdx := 0
      state := .identifier })

/-- ID_BIT, 43_engine_header.md R151. -/
def execIdBit (b : Bit) (s : State) : Result := .next (identifierBit b s)

/-- ID_RTR_SRR, 43_engine_header.md R152. -/
def execIdRtrSrr (b : Bit) (s : State) : Result :=
  .next (markBit b { setFieldIdx 12 s with rtr := b })

/-- The end of a base identifier, at a dominant IDE bit (43_engine_header.md R153). -/
def endBaseIdentifier (s : State) : State :=
  let s := { s with frameType := if s.rtr then .remote else .data }
  let p1 : BitVec 32 := (s.identifier &&& 0x7FF).setWidth 32
  goto .controlBase (emit .stdIdentifier p1 (bitAs 32 s.rtr) s.bitEnd s)

/-- ID_IDE, 43_engine_header.md R153. -/
def execIdIde (b : Bit) (s : State) : Result :=
  let s := markBit b { setFieldIdx 13 s with ide := b }
  .next (if b then s else endBaseIdentifier s)

/-- ID_EXT_BIT, 43_engine_header.md R154. -/
def execIdExtBit (b : Bit) (s : State) : Result := .next (identifierBit b s)

/-- ID_EXT_RTR, 43_engine_header.md R155. -/
def execIdExtRtr (b : Bit) (s : State) : Result :=
  let s := markBit b { setFieldIdx 32 s with rtr := b }
  let s := { s with frameType := if b then .remote else .data }
  .next (goto .controlExtended
    (emit .extIdentifier (s.identifier.setWidth 32) (bitAs 32 s.rtr) s.bitEnd s))

/-- CB_FDF, 43_engine_header.md R156. -/
def execCbFdf (b : Bit) (s : State) : Result :=
  let s := setFieldIdx 1 s
  .next (if b then putMark .one { s with frameType := .fdData }
    else goto .controlAfterR0 (putMark .dot s))

/-- CB_RES, 43_engine_header.md R157. -/
def execCbRes (b : Bit) (s : State) : Result := .next (reservedBit b (setFieldIdx 2 s))

/-- CE_FDF, 43_engine_header.md R158. -/
def execCeFdf (b : Bit) (s : State) : Result :=
  let s := setFieldIdx 1 s
  .next (markBit b (if b then { s with frameType := .fdData } else s))

/-- CE_R0, 43_engine_header.md R159. -/
def execCeR0 (b : Bit) (s : State) : Result := .next (reservedBit b (setFieldIdx 2 s))

/-- CA_DLC_CLASSIC, 43_engine_header.md R160. -/
def execCaDlcClassic (b : Bit) (s : State) : Result :=
  let s := dlcBit b s
  .next (if s.fieldIdx = 4 then
      afterControl (emit .classicControl (s.dlc.setWidth 32) (BitVec.ofNat 32 s.byteCount) s.bitEnd s)
    else s)

/-- CA_BRS, 43_engine_header.md R161. -/
def execCaBrs (b : Bit) (s : State) : Result :=
  let s := { setFieldIdx 1 s with brs := b }
  if b then execClkSwitchUp (putMark .upArrow s) else .next (putMark .zero s)

/-- CA_ESI, 43_engine_header.md R162. -/
def execCaEsi (b : Bit) (s : State) : Result := .next (markBit b { setFieldIdx 2 s with esi := b })

/-- CA_DLC_FD, 43_engine_header.md R163. -/
def execCaDlcFd (b : Bit) (s : State) : Result :=
  let s := dlcBit b s
  .next (if s.fieldIdx = 6 then
      afterControl (emit .fdControl (s.dlc.setWidth 32) (flagPair s.brs s.esi) s.bitEnd s)
    else s)

end Sys2Proof.Machine
end

