-- ==== Sys2Proof/Machine/EnginePayload.lean ====
section
/-! DEFINITION. The engine operations of the payload and CRC fields, 44_engine_payload.md R170 to R184. -/

namespace Sys2Proof.Machine

/-- A data bit after its byte `k` has been written: count, mark, and the record of a completed byte
(44_engine_payload.md R170). -/
def dataBitCounted (k : Nat) (b : Bit) (s : State) : State :=
  let s := markBit b (advance s)
  if s.fieldIdx.toNat % 8 = 0 then
    emit .data ((s.bufRead k).setWidth 32) (BitVec.ofNat 32 k) s.bitEnd s
  else s

/-- The route after the last data bit (44_engine_payload.md R170). -/
def dataBitRouted (s : State) : State :=
  if s.fieldIdx.toNat = 8 * s.byteCount then routeAfterPayload s else s

/-- DATA_BIT, 44_engine_payload.md R170. The byte index is taken before the increment. -/
def execDataBit (b : Bit) (s : State) : Result :=
  let k := s.fieldIdx.toNat / 8
  andThen (bufWrite k (shiftIn 0xFF (s.bufRead k) b) s) fun s =>
    .next (dataBitRouted (dataBitCounted k b s))

/-- A fixed stuff bit must differ from the previous bit on the wire, else FIXED_STUFF
(44_engine_payload.md R172, R179, R180). -/
def fixedStuffBit (b : Bit) (s : State) : State :=
  if b = s.prevBit then raiseError .fixedStuff (putMark .errorX s) else putMark .x s

/-- One SBC bit shifted in (44_engine_payload.md R173, R175). -/
def sbcShift (b : Bit) (s : State) : State := { s with sbcBits := shiftIn 0xF s.sbcBits b }

/-- SBC_FSB, 44_engine_payload.md R172. -/
def execSbcFsb (b : Bit) (s : State) : Result := .next (fixedStuffBit b (setFieldIdx 1 s))

/-- SBC_BIT, 44_engine_payload.md R173. -/
def execSbcBit (b : Bit) (s : State) : Result := .next (markBit b (sbcShift b (advance s)))

/-- SBC_LAST, 44_engine_payload.md R175. -/
def execSbcLast (b : Bit) (s : State) : Result :=
  let s := markBit b (sbcShift b (setFieldIdx 5 s))
  let flags := flagPair (sbcParityErr s.sbcBits) (sbcCountErr s.sbcBits s.stuffCount)
  let s := emit .stuffBitCount ((sbcCount s.sbcBits).setWidth 32) flags s.bitEnd s
  .next (goto (fdCrcState s.dlc) { s with dsActive := false })

/-- One received CRC bit shifted into `crcRx` under the field's mask (44_engine_payload.md R177 to R184). -/
def crcRxShift (mask : BitVec 21) (b : Bit) (s : State) : State :=
  { s with crcRx := shiftIn mask s.crcRx b }

/-- The masks of 41_crc_engines.md R130 on the 21-bit `crcRx`. -/
def rxMask15 : BitVec 21 := 0x7FFF
def rxMask17 : BitVec 21 := 0x1FFFF
def rxMask21 : BitVec 21 := 0x1FFFFF

/-- The mark of a CRC field's last bit: ErrorSquare when its accumulator is not 0
(44_engine_payload.md R178, R183, R184). -/
def markCrcLast (err : Bool) (b : Bit) (s : State) : State :=
  if err then putMark .errorSquare s else markBit b s

/-- The CRC record with its error flag (30_encoding.md R82). -/
def emitCrc (kind : RecKind) (err : Bool) (s : State) : State :=
  emit kind (s.crcRx.setWidth 32) (bitAs 32 err) s.bitEnd s

/-- CRC15_BIT, 44_engine_payload.md R177. -/
def execCrc15Bit (b : Bit) (s : State) : Result :=
  .next (markBit b (crcRxShift rxMask15 b (advance s)))

/-- CRC15_LAST, 44_engine_payload.md R178: the record first, then the error. -/
def execCrc15Last (b : Bit) (s : State) : Result :=
  let s := crcRxShift rxMask15 b (setFieldIdx 15 s)
  let err : Bool := s.crc15 != 0
  let s := emitCrc .crc15 err (markCrcLast err b s)
  .next (if err then raiseError .crc15 s else goto .crcdel s)

/-- CRC17_FSB, 44_engine_payload.md R179. -/
def execCrc17Fsb (b : Bit) (s : State) : Result := .next (fixedStuffBit b (advance s))

/-- CRC21_FSB, 44_engine_payload.md R180. -/
def execCrc21Fsb (b : Bit) (s : State) : Result := .next (fixedStuffBit b (advance s))

/-- CRC17_BIT, 44_engine_payload.md R181. -/
def execCrc17Bit (b : Bit) (s : State) : Result :=
  andThen (execCrc17Step b (advance s)) fun s => .next (markBit b (crcRxShift rxMask17 b s))

/-- CRC21_BIT, 44_engine_payload.md R182. -/
def execCrc21Bit (b : Bit) (s : State) : Result :=
  andThen (execCrc21Step b (advance s)) fun s => .next (markBit b (crcRxShift rxMask21 b s))

/-- CRC17_LAST, 44_engine_payload.md R183: a mismatch is only flagged. -/
def execCrc17Last (b : Bit) (s : State) : Result :=
  andThen (execCrc17Step b (setFieldIdx 22 s)) fun s =>
    let s := crcRxShift rxMask17 b s
    let err : Bool := s.crc17 != 0
    .next (goto .crcdel (emitCrc .crc17 err (markCrcLast err b s)))

/-- CRC21_LAST, 44_engine_payload.md R184: a mismatch is only flagged. -/
def execCrc21Last (b : Bit) (s : State) : Result :=
  andThen (execCrc21Step b (setFieldIdx 27 s)) fun s =>
    let s := crcRxShift rxMask21 b s
    let err : Bool := s.crc21 != 0
    .next (goto .crcdel (emitCrc .crc21 err (markCrcLast err b s)))

end Sys2Proof.Machine
end

