-- ==== Sys2Proof/Machine/EngineTrailer.lean ====
section
/-! DEFINITION. The engine operations of the frame trailer and of error recovery, 45_engine_trailer.md R190
to R198. -/

namespace Sys2Proof.Machine

/-- CRCDEL_BIT, 45_engine_trailer.md R190. -/
def execCrcdelBit (b : Bit) (s : State) : Result :=
  let s := { s with dsActive := false }
  if b then
    andThen
      (if s.dataRate then execClkSwitchDown (putMark .downArrow s) else .next (putMark .dot s))
      fun s => .next (goto .ack s)
  else .next (raiseError .form (putMark .errorDot s))

/-- ACK_SLOT, 45_engine_trailer.md R192. -/
def execAckSlot (b : Bit) (s : State) : Result :=
  .next (markBit b { setFieldIdx 1 s with ackSlot := b })

/-- A fixed-form bit that must be recessive: Dot and `next`, or ErrorDot and FORM
(45_engine_trailer.md R193 to R195). -/
def recessiveBit (b : Bit) (s : State) (f : State → State) : State :=
  if b then f (putMark .dot s) else raiseError .form (putMark .errorDot s)

/-- ACK_DEL, 45_engine_trailer.md R193. -/
def execAckDel (b : Bit) (s : State) : Result :=
  .next (recessiveBit b (setFieldIdx 2 s) fun s =>
    goto .endOfFrame (emit .ack (bitAs 32 s.ackSlot) 0 s.bitEnd s))

/-- EOF_BIT, 45_engine_trailer.md R194. -/
def execEofBit (b : Bit) (s : State) : Result :=
  .next (recessiveBit b (advance s) fun s =>
    if s.fieldIdx = 7 then goto .intermission (emit .eof 0 0 s.bitEnd s) else s)

/-- IFS_BIT, 45_engine_trailer.md R195. -/
def execIfsBit (b : Bit) (s : State) : Result :=
  .next (recessiveBit b (advance s) fun s =>
    if s.fieldIdx = 3 then goto .idle (emit .intermission 0 0 s.bitEnd s) else s)

/-- ERR_BIT, 45_engine_trailer.md R198. -/
def execErrBit (b : Bit) (s : State) : Result :=
  let s := { s with errCount := if b then s.errCount + 1 else 0 }
  .next (if s.errCount = 11 then returnFromError s else s)

end Sys2Proof.Machine
end

