-- ==== Sys2Proof/Machine/Datapath.lean ====
section
/-! DEFINITION. The tick and the bit path: 40_datapath.md R121 to R123, CLK_SAMPLE (47_bit_clock.md R211)
and RESET (70_reset_and_hazards.md R260). The destuffer and engine operations that run are the ones the
decoder reads from the selector words of Machine/Operands.lean. -/

namespace Sys2Proof.Machine

/-- Run a destuffer operation. -/
def runDs (op : DsOp) (b : Bit) (s : State) : Result :=
  match op with
  | .direct => execDsDirect b s
  | .forced => execDsForced b s
  | .stuff => execDsStuff b s
  | .stuffError => execDsStuffError b s
  | .passSame => execDsPassSame b s
  | .passToggle => execDsPassToggle b s

/-- Run an engine operation. -/
def runEng (op : EngOp) (b : Bit) (s : State) : Result :=
  match op with
  | .idleRecessive => execIdleRecessive b s
  | .idleSof => execIdleSof b s
  | .idBit => execIdBit b s
  | .idRtrSrr => execIdRtrSrr b s
  | .idIde => execIdIde b s
  | .idExtBit => execIdExtBit b s
  | .idExtRtr => execIdExtRtr b s
  | .cbFdf => execCbFdf b s
  | .cbRes => execCbRes b s
  | .ceFdf => execCeFdf b s
  | .ceR0 => execCeR0 b s
  | .caDlcClassic => execCaDlcClassic b s
  | .caBrs => execCaBrs b s
  | .caEsi => execCaEsi b s
  | .caDlcFd => execCaDlcFd b s
  | .dataBit => execDataBit b s
  | .sbcFsb => execSbcFsb b s
  | .sbcBit => execSbcBit b s
  | .sbcLast => execSbcLast b s
  | .crc15Bit => execCrc15Bit b s
  | .crc15Last => execCrc15Last b s
  | .crc17Fsb => execCrc17Fsb b s
  | .crc17Bit => execCrc17Bit b s
  | .crc17Last => execCrc17Last b s
  | .crc21Fsb => execCrc21Fsb b s
  | .crc21Bit => execCrc21Bit b s
  | .crc21Last => execCrc21Last b s
  | .crcdelBit => execCrcdelBit b s
  | .ackSlot => execAckSlot b s
  | .ackDel => execAckDel b s
  | .eofBit => execEofBit b s
  | .ifsBit => execIfsBit b s
  | .errBit => execErrBit b s

/-- `crc15Feed(b)`, 43_engine_header.md R148. -/
def crc15Feed (b : Bit) (s : State) : Result :=
  if feedsCrc15 s.state then execCrc15Step b s else .next s

/-- `engineStep(b)`, 40_datapath.md R123: CRC-15 feeding, selection, one engine operation. -/
def engineStep (b : Bit) (s : State) : Result :=
  andThen (crc15Feed b s) fun s =>
    match decodeEng (engWord s b) s.fieldIdx s.dlc with
    | some op => runEng op b s
    | none => .refused .noOperationSelected

/-- `bitPath(b, c, T)`, 40_datapath.md R122. The centre `c` is `sampleIdx` (R121: `c <- s`). -/
def bitPath (b : Bit) (s : State) : Result :=
  if runLengthIllegal s then .refused .runLengthOutOfRange
  else
    match decodeDs (dsWord s b) with
    | none => .refused .noOperationSelected
    | some op =>
      andThen (runDs op b s) fun s =>
        andThen (if op.outcome.reachesEngine then engineStep b s else .next s) fun s =>
          .next { s with prevBit := b }

/-- CLK_SAMPLE, 47_bit_clock.md R211: take the bit `v` at the present sample. -/
def execClkSample (v : Bit) (s : State) : Result :=
  bitPath v { s with nextCenter := (s.sampleIdx : Int) + s.period }

/-- The clock stage of a tick up to the due test: CLK_RESYNC on an edge, then `prevLevel <- v`
(40_datapath.md R121). -/
def clockEdge (v : Bit) (s : State) : Result :=
  andThen (if isEdge s v then execClkResync s else .next s) fun s => .next { s with prevLevel := v }

/-- TICK, 40_datapath.md R121. -/
def execTick (raw : Bit) (s : State) : Result :=
  underLegalConfig s fun s =>
    let v := logicalLevel s.cfg raw
    andThen (clockEdge v (clearOutputs s)) fun s =>
      andThen (if isDue s then execClkSample v s else .next s) fun s =>
        .next { s with sampleIdx := s.sampleIdx + 1 }

/-- RESET, 70_reset_and_hazards.md R260. The raw level is ignored. -/
def execReset (s : State) : Result :=
  underLegalConfig s fun s => .next (State.resetWith s.cfg s.input)

end Sys2Proof.Machine
end

