-- ==== Sys2Proof/Machine/Dispatch.lean ====
section
/-! DEFINITION. The meaning of each micro-operation, one arm per row of opcode_table.json. A
meaning runs its rule's pseudocode in every state, selected there or not (notes/assumptions/10.md). -/

namespace Sys2Proof.Machine

open Sys2Proof

def exec (i : Instr) (s : State) : Host.Outcome State Fault Refusal :=
  match i with
  | .reset => Sys2Proof.Machine.execReset s
  | .tick raw => Sys2Proof.Machine.execTick raw s
  | .clkResync => Sys2Proof.Machine.execClkResync s
  | .clkSample v => Sys2Proof.Machine.execClkSample v s
  | .clkSwitchUp => Sys2Proof.Machine.execClkSwitchUp s
  | .clkSwitchDown => Sys2Proof.Machine.execClkSwitchDown s
  | .crc15Step b => Sys2Proof.Machine.execCrc15Step b s
  | .crc17Step b => Sys2Proof.Machine.execCrc17Step b s
  | .crc21Step b => Sys2Proof.Machine.execCrc21Step b s
  | .dsDirect b => Sys2Proof.Machine.execDsDirect b s
  | .dsForced b => Sys2Proof.Machine.execDsForced b s
  | .dsStuff b => Sys2Proof.Machine.execDsStuff b s
  | .dsStuffError b => Sys2Proof.Machine.execDsStuffError b s
  | .dsPassSame b => Sys2Proof.Machine.execDsPassSame b s
  | .dsPassToggle b => Sys2Proof.Machine.execDsPassToggle b s
  | .idleRecessive b => Sys2Proof.Machine.execIdleRecessive b s
  | .idleSof b => Sys2Proof.Machine.execIdleSof b s
  | .idBit b => Sys2Proof.Machine.execIdBit b s
  | .idRtrSrr b => Sys2Proof.Machine.execIdRtrSrr b s
  | .idIde b => Sys2Proof.Machine.execIdIde b s
  | .idExtBit b => Sys2Proof.Machine.execIdExtBit b s
  | .idExtRtr b => Sys2Proof.Machine.execIdExtRtr b s
  | .cbFdf b => Sys2Proof.Machine.execCbFdf b s
  | .cbRes b => Sys2Proof.Machine.execCbRes b s
  | .ceFdf b => Sys2Proof.Machine.execCeFdf b s
  | .ceR0 b => Sys2Proof.Machine.execCeR0 b s
  | .caDlcClassic b => Sys2Proof.Machine.execCaDlcClassic b s
  | .caBrs b => Sys2Proof.Machine.execCaBrs b s
  | .caEsi b => Sys2Proof.Machine.execCaEsi b s
  | .caDlcFd b => Sys2Proof.Machine.execCaDlcFd b s
  | .dataBit b => Sys2Proof.Machine.execDataBit b s
  | .sbcFsb b => Sys2Proof.Machine.execSbcFsb b s
  | .sbcBit b => Sys2Proof.Machine.execSbcBit b s
  | .sbcLast b => Sys2Proof.Machine.execSbcLast b s
  | .crc15Bit b => Sys2Proof.Machine.execCrc15Bit b s
  | .crc15Last b => Sys2Proof.Machine.execCrc15Last b s
  | .crc17Fsb b => Sys2Proof.Machine.execCrc17Fsb b s
  | .crc17Bit b => Sys2Proof.Machine.execCrc17Bit b s
  | .crc17Last b => Sys2Proof.Machine.execCrc17Last b s
  | .crc21Fsb b => Sys2Proof.Machine.execCrc21Fsb b s
  | .crc21Bit b => Sys2Proof.Machine.execCrc21Bit b s
  | .crc21Last b => Sys2Proof.Machine.execCrc21Last b s
  | .crcdelBit b => Sys2Proof.Machine.execCrcdelBit b s
  | .ackSlot b => Sys2Proof.Machine.execAckSlot b s
  | .ackDel b => Sys2Proof.Machine.execAckDel b s
  | .eofBit b => Sys2Proof.Machine.execEofBit b s
  | .ifsBit b => Sys2Proof.Machine.execIfsBit b s
  | .errBit b => Sys2Proof.Machine.execErrBit b s

end Sys2Proof.Machine
end

