-- ==== Sys2Proof/Machine/Fetch.lean ====
section
/-! DEFINITION. How a step finds its operation: the ports of the next tick give the HOST selector, the
decoder reads RESET or TICK from it, and TICK's own selectors follow (Machine/Datapath.lean). And how a
given selector is placed in a state so that the next step runs its operation
(notes/assumptions/13.md). -/

namespace Sys2Proof.Machine

/-- One tick with the port values `p`: decode the HOST word, take the ports, run the operation. -/
def runTick (p : PortIn) (rest : List PortIn) (s : State) : Result :=
  match decode (hostSelector p s) with
  | .ok i => andThen (acceptPorts p rest s) (exec i)
  | .error _ => .refused .noOperationSelected

/-- Present one more tick, before those already waiting, with reset and the logical level given. -/
def present (rst level : Bit) (s : State) : State :=
  { s with input := ⟨rst, level ^^ s.cfg.invert, s.cfg⟩ :: s.input }

/-- Present a tick that delivers the bit `b`: no edge, and the bit due at this sample. -/
def presentBit (b : Bit) (s : State) : State :=
  present false b { s with prevLevel := b, nextCenter := s.sampleIdx }

/-- The registers an ENG word and the condition column read, set from a selector; the bit arrives DIRECT. -/
def setEngRegisters (word : BitVec 8) (fieldIdx : BitVec 10) (dlc : BitVec 4) (s : State) : State :=
  { s with
    state := (EngState.ofCode? (word.extractLsb' 4 4)).getD s.state
    frameType := (FrameType.ofCode? (word.extractLsb' 2 2)).getD s.frameType
    dataRate := word.getLsbD 1
    fieldIdx := fieldIdx
    dlc := dlc
    dsActive := false }

/-- The registers a DS word reads, set from the word. -/
def setDsRegisters (word : BitVec 4) (b : Bit) (s : State) : State :=
  let s := { s with
    dsActive := word.getLsbD 3
    runLength := if word.getLsbD 1 then 5 else 1
    lastBit := if word.getLsbD 0 then b else !b }
  if word.getLsbD 2 then { s with state := .sbc, fieldIdx := 0 }
  else if forcedSlot s then { s with fieldIdx := 1 } else s

/-- Place a selector: the next step is a tick whose selection reads it. -/
def placeSelector (sel : Selector) (s : State) : State :=
  match sel with
  | .host word raw => present (word.getLsbD 3) (logicalLevel s.cfg raw) s
  | .edge word => present (word.getLsbD 3) (if word.getLsbD 2 then !s.prevLevel else s.prevLevel) s
  | .due word v =>
    if word.getLsbD 1 then presentBit v s else present (word.getLsbD 3) s.prevLevel s
  | .ds word b => presentBit b (setDsRegisters word b s)
  | .eng word fieldIdx dlc => presentBit (word.getLsbD 0) (setEngRegisters word fieldIdx dlc s)
  | .rate word fieldIdx => presentBit (word.getLsbD 0) (setEngRegisters word fieldIdx s.dlc s)
  | .call .crc15 b => presentBit b (setEngRegisters 0x10 0 s.dlc s)
  | .call .crc17 b => presentBit b (setEngRegisters 0x88 1 s.dlc s)
  | .call .crc21 b => presentBit b (setEngRegisters 0x98 1 s.dlc s)

/-- Place a bare table word. -/
def placeTableWord (s : State) (nbits w : Nat) : State :=
  match tableSelector nbits w with
  | some sel => placeSelector sel s
  | none => s

end Sys2Proof.Machine
end

