-- ==== Sys2Proof/Machine/Step.lean ====
section
/-! DEFINITION. One step of the block: one tick (00_scope.md R18). -/

namespace Sys2Proof.Machine

/-- One tick with the next port values of the timeline, or a refusal when the host presents none
(notes/assumptions/3.md). -/
def step (s : State) : Host.Outcome State Fault Refusal :=
  match s.input with
  | [] => .refused .noSample
  | p :: rest => runTick p rest s

/-- The state in which the next step runs the operation of a bare table word
(notes/assumptions/13.md). -/
def State.withFetchWord (s : State) (nbits w : Nat) : State := placeTableWord s nbits w

end Sys2Proof.Machine
end

