-- ==== Sys2Proof/Safety.lean ====
section
/-! DEFINITION. What a run of the block keeps: the invariant of its reachable states, gathered from
10_state.md R24, R26, 30_encoding.md R90, 42_destuffer.md R147, 47_bit_clock.md R212 and 60_exceptions.md
R231, what a tick must present, and the observations claims are made of (00_scope.md R19). -/

namespace Sys2Proof.Machine

/-! ## The invariant, one clause per group of rules -/

/-- `fieldIdx` is in the range in which 30_encoding.md R90 selects a row in the present state. -/
def slotInRange (s : State) : Prop :=
  match s.state with
  | .idle | .crcdel | .decoderError => s.fieldIdx = 0
  | .identifier => s.fieldIdx.toNat ≤ 31 ∧ (13 ≤ s.fieldIdx.toNat → s.ide = true)
  | .controlBase => s.fieldIdx.toNat ≤ 1 ∧ (s.fieldIdx.toNat = 1 → s.frameType = .fdData)
  | .controlExtended => s.fieldIdx.toNat ≤ 1
  | .controlAfterR0 => s.fieldIdx.toNat ≤ 5 ∧ (s.frameType ≠ .fdData → s.fieldIdx.toNat ≤ 3)
  | .data => s.fieldIdx.toNat < 8 * s.byteCount
  | .sbc => s.fieldIdx.toNat ≤ 4
  | .crc15 => s.fieldIdx.toNat ≤ 14
  | .crc17 => s.fieldIdx.toNat ≤ 21
  | .crc21 => s.fieldIdx.toNat ≤ 26
  | .ack => s.fieldIdx.toNat ≤ 1
  | .endOfFrame => s.fieldIdx.toNat ≤ 6
  | .intermission => s.fieldIdx.toNat ≤ 2

/-- The destuffer is active exactly from SOF to the point where the frame's dynamic stuffing ends
(92_eei_decisions.md D8; 44_engine_payload.md R171, R175; 45_engine_trailer.md R190). -/
def destufferScope (s : State) : Prop :=
  match s.state with
  | .identifier | .controlBase | .controlExtended | .controlAfterR0 | .data | .sbc | .crc15 =>
    s.dsActive = true
  | .crcdel => (s.dsActive = true ↔ s.frameType ≠ .fdData)
  | .idle | .crc17 | .crc21 | .ack | .endOfFrame | .intermission | .decoderError => s.dsActive = false

/-- The run registers, 10_state.md R24 and 42_destuffer.md R147 (a); in SBC the run restarted at slot 1
(42_destuffer.md R141). -/
def runConsistent (s : State) : Prop :=
  s.runLength.toNat ≤ 5 ∧
  (s.runLength.toNat = 0 → s.state = .idle) ∧
  (s.dsActive = true → 1 ≤ s.runLength.toNat ∧ s.lastBit = s.prevBit) ∧
  (s.state = .sbc → 1 ≤ s.fieldIdx.toNat → s.runLength.toNat ≤ s.fieldIdx.toNat)

/-- The data rate is in force only from a recessive BRS bit to the CRC delimiter of an FD frame
(47_bit_clock.md R212, R215, R216). -/
def rateScope (s : State) : Prop :=
  s.dataRate = true →
    s.frameType = .fdData ∧ s.brs = true ∧
    ((s.state = .controlAfterR0 ∧ 1 ≤ s.fieldIdx.toNat) ∨ s.state = .data ∨ s.state = .sbc ∨
      s.state = .crc17 ∨ s.state = .crc21 ∨ s.state = .crcdel)

/-- The frame type agrees with the field that is being received (44_engine_payload.md R171, R175). -/
def routeConsistent (s : State) : Prop :=
  match s.state with
  | .crc15 => s.frameType ≠ .fdData
  | .sbc => s.frameType = .fdData ∧ s.cfg.iso = true
  | .crc17 => s.frameType = .fdData ∧ s.dlc.toNat ≤ 10
  | .crc21 => s.frameType = .fdData ∧ 10 < s.dlc.toNat
  | .idle | .identifier | .controlBase | .controlExtended | .controlAfterR0 | .data | .crcdel | .ack
  | .endOfFrame | .intermission | .decoderError => True

/-- The error registers: the recovery count stays below 11 (45_engine_trailer.md R198), and in
DECODER_ERROR a cause and a state of detection are recorded (60_exceptions.md R231, R236). -/
def errorConsistent (s : State) : Prop :=
  s.errCount.toNat ≤ 10 ∧
  (s.state = .decoderError →
    s.errCause ≠ .none ∧ s.errState ≠ .idle ∧ s.errState ≠ .decoderError)

/-- The invariant of the reachable states under a legal configuration. -/
structure Inv (s : State) : Prop where
  legal : s.cfg.legal = true
  slot : slotInRange s
  scope : destufferScope s
  run : runConsistent s
  rate : rateScope s
  route : routeConsistent s
  err : errorConsistent s
  buf : Memory.wf s.buf = true

/-! ## Tables of the spec that claims are stated against -/

/-- The condition column of 30_encoding.md R90 for an engine row, with `i = fieldIdx + 1`. -/
def mapCondition (op : EngOp) (s : State) (b : Bit) : Prop :=
  let i := s.fieldIdx.toNat + 1
  match op with
  | .idleRecessive => s.state = .idle ∧ b = true
  | .idleSof => s.state = .idle ∧ b = false
  | .idBit => s.state = .identifier ∧ 1 ≤ i ∧ i ≤ 11
  | .idRtrSrr => s.state = .identifier ∧ i = 12
  | .idIde => s.state = .identifier ∧ i = 13
  | .idExtBit => s.state = .identifier ∧ 14 ≤ i ∧ i ≤ 31
  | .idExtRtr => s.state = .identifier ∧ i = 32
  | .cbFdf => s.state = .controlBase ∧ i = 1
  | .cbRes => s.state = .controlBase ∧ i = 2
  | .ceFdf => s.state = .controlExtended ∧ i = 1
  | .ceR0 => s.state = .controlExtended ∧ i = 2
  | .caDlcClassic => s.state = .controlAfterR0 ∧ s.frameType ≠ .fdData ∧ 1 ≤ i ∧ i ≤ 4
  | .caBrs => s.state = .controlAfterR0 ∧ s.frameType = .fdData ∧ i = 1
  | .caEsi => s.state = .controlAfterR0 ∧ s.frameType = .fdData ∧ i = 2
  | .caDlcFd => s.state = .controlAfterR0 ∧ s.frameType = .fdData ∧ 3 ≤ i ∧ i ≤ 6
  | .dataBit => s.state = .data ∧ 1 ≤ i ∧ i ≤ 8 * s.byteCount
  | .sbcFsb => s.state = .sbc ∧ i = 1
  | .sbcBit => s.state = .sbc ∧ 2 ≤ i ∧ i ≤ 4
  | .sbcLast => s.state = .sbc ∧ i = 5
  | .crc15Bit => s.state = .crc15 ∧ 1 ≤ i ∧ i ≤ 14
  | .crc15Last => s.state = .crc15 ∧ i = 15
  | .crc17Fsb => s.state = .crc17 ∧ s.fieldIdx.toNat % 5 = 0
  | .crc17Bit => s.state = .crc17 ∧ s.fieldIdx.toNat % 5 ≠ 0 ∧ i < 22
  | .crc17Last => s.state = .crc17 ∧ i = 22
  | .crc21Fsb => s.state = .crc21 ∧ s.fieldIdx.toNat % 5 = 0
  | .crc21Bit => s.state = .crc21 ∧ s.fieldIdx.toNat % 5 ≠ 0 ∧ i < 27
  | .crc21Last => s.state = .crc21 ∧ i = 27
  | .crcdelBit => s.state = .crcdel
  | .ackSlot => s.state = .ack ∧ i = 1
  | .ackDel => s.state = .ack ∧ i = 2
  | .eofBit => s.state = .endOfFrame ∧ 1 ≤ i ∧ i ≤ 7
  | .ifsBit => s.state = .intermission ∧ 1 ≤ i ∧ i ≤ 3
  | .errBit => s.state = .decoderError

/-- The table of 60_exceptions.md R231: the cause an operation raises and its mark at the error bit. -/
def errorTable : Instr → Option (ErrCause × MarkKind)
  | .dsStuffError _ => some (.stuff, .errorX)
  | .sbcFsb _ | .crc17Fsb _ | .crc21Fsb _ => some (.fixedStuff, .errorX)
  | .cbRes _ | .ceR0 _ | .crcdelBit _ | .ackDel _ | .eofBit _ | .ifsBit _ => some (.form, .errorDot)
  | .crc15Last _ => some (.crc15, .errorSquare)
  | .reset | .tick _ | .clkResync | .clkSample _ | .clkSwitchUp | .clkSwitchDown => none
  | .crc15Step _ | .crc17Step _ | .crc21Step _ => none
  | .dsDirect _ | .dsForced _ | .dsStuff _ | .dsPassSame _ | .dsPassToggle _ => none
  | .idleRecessive _ | .idleSof _ | .idBit _ | .idRtrSrr _ | .idIde _ | .idExtBit _ => none
  | .idExtRtr _ | .cbFdf _ | .ceFdf _ | .caDlcClassic _ | .caBrs _ | .caEsi _ | .caDlcFd _ => none
  | .dataBit _ | .sbcBit _ | .sbcLast _ | .crc15Bit _ | .crc17Bit _ | .crc17Last _ => none
  | .crc21Bit _ | .crc21Last _ | .ackSlot _ | .errBit _ => none

/-- The operations that work on one bit or register group: all but RESET, TICK and CLK_SAMPLE, which run
others (40_datapath.md R121, R122). -/
def isSingleOperation : Instr → Bool
  | .reset | .tick _ | .clkSample _ => false
  | .clkResync | .clkSwitchUp | .clkSwitchDown => true
  | .crc15Step _ | .crc17Step _ | .crc21Step _ => true
  | .dsDirect _ | .dsForced _ | .dsStuff _ | .dsStuffError _ | .dsPassSame _ | .dsPassToggle _ => true
  | .idleRecessive _ | .idleSof _ | .idBit _ | .idRtrSrr _ | .idIde _ | .idExtBit _ => true
  | .idExtRtr _ | .cbFdf _ | .cbRes _ | .ceFdf _ | .ceR0 _ | .caDlcClassic _ | .caBrs _ => true
  | .caEsi _ | .caDlcFd _ | .dataBit _ | .sbcFsb _ | .sbcBit _ | .sbcLast _ => true
  | .crc15Bit _ | .crc15Last _ | .crc17Fsb _ | .crc17Bit _ | .crc17Last _ => true
  | .crc21Fsb _ | .crc21Bit _ | .crc21Last _ | .crcdelBit _ | .ackSlot _ | .ackDel _ => true
  | .eofBit _ | .ifsBit _ | .errBit _ => true

/-! ## What the host must present (10_state.md R44, 70_reset_and_hazards.md R266) -/

/-- The ports of a tick are legal in a state: a legal configuration, changed only under reset. -/
def admissible (p : PortIn) (s : State) : Prop :=
  p.cfg.legal = true ∧ (p.rst = false → p.cfg = s.cfg)

/-- A timeline that is legal tick by tick from configuration `cfg` on. -/
def admissibleRun : List PortIn → Config → Prop
  | [], _ => True
  | p :: rest, cfg => p.cfg.legal = true ∧ (p.rst = false → p.cfg = cfg) ∧ admissibleRun rest p.cfg

/-! ## Observation (00_scope.md R19) -/

/-- The next state of an outcome, if there is one. -/
def nextState? (o : Result) : Option State :=
  match o with
  | .next s => some s
  | .fault _ | .refused _ => none

/-- The states after each of the next `n` ticks, ending early where the run stops. -/
def trace : Nat → State → List State
  | 0, _ => []
  | n + 1, s =>
    match nextState? (step s) with
    | some t => t :: trace n t
    | none => []

/-- The record stream of the next `n` ticks (20_memory.md R60 (c)). -/
def recordStream (n : Nat) (s : State) : List FieldRec := (trace n s).filterMap (·.recOut)

/-- The mark stream of the next `n` ticks (20_memory.md R60 (d)). -/
def markStream (n : Nat) (s : State) : List Mark := (trace n s).filterMap (·.markOut)

/-- Where the registers stand, when a bit of a field arrives, that other ticks may write after the field's
previous bit: ticks in which no bit is due, dynamic stuff bits (40_datapath.md R121, 42_destuffer.md R143),
and the destuffer's and CRC-15's work on the bit itself (R145, R146, 43_engine_header.md R148). -/
structure Between where
  input : List PortIn
  sampleIdx : Nat
  nextCenter : Int
  prevLevel : Bit
  runLength : BitVec 3
  lastBit : Bit
  stuffCount : BitVec 8
  crc15 : BitVec 15
  crc17 : BitVec 17
  crc21 : BitVec 21
  prevBit : Bit
  deriving DecidableEq, Repr

/-- `s` with those registers, and no output yet in the tick of the bit. -/
def Between.apply (g : Between) (s : State) : State :=
  { s with
    recOut := none, markOut := none
    input := g.input, sampleIdx := g.sampleIdx, nextCenter := g.nextCenter, prevLevel := g.prevLevel
    runLength := g.runLength, lastBit := g.lastBit, stuffCount := g.stuffCount
    crc15 := g.crc15, crc17 := g.crc17, crc21 := g.crc21, prevBit := g.prevBit }

/-- An operation run once for each bit of a field, first bit first, each bit at its own time. -/
def execBitsAt (op : Bit → Instr) : List (Between × Bit) → State → Result
  | [], s => .next s
  | (g, b) :: bits, s => andThen (exec (op b) (g.apply s)) (execBitsAt op bits)

/-- An operation run once for each bit, first bit first, with nothing in between. -/
def execBits (op : Bit → Instr) : List Bit → State → Result
  | [], s => .next s
  | b :: bs, s => andThen (exec (op b) s) (execBits op bs)

/-- The bits of a vector, most significant first: the order of transmission (20_memory.md R61). -/
def bitsMsbFirst {w : Nat} (x : BitVec w) : List Bit := (List.range w).map fun k => x.getMsbD k

end Sys2Proof.Machine
end

