-- ==== Sys2Proof/Certificates/Slice0/Obligations.lean ====
section
/-! DEFINITION. The statements about the model, for the provers. `c` below is the centre sample
`sampleIdx` of the current bit and `T` the period in force; `bitEnd` is pinned down by
`PeriodAndBitExtent`, `raiseError` by `ErrorEntryWritesSevenRegisters`, `crcStep` by
`CrcStepsAreShiftAndXor`. A result is written as the whole next state, so it is also its own frame: every
register, port and data buffer byte not named keeps its value. -/

section

open Sys2Proof Sys2Proof.Machine

/-! ## Encoding and selection -/

/-- Selector words written out from the tables of R84, R85, R90 and R95 decode to their rows, and the codes
are the numbers of the tables of R81, R83, R84, R85 and R87, in the tables' order. -/
def Obligations.WrittenSelectorWordsDecode : Prop :=
  decode (.host 0b1000 true) = .ok .reset ∧
  decode (.host 0b0110 false) = .ok (.tick false) ∧
  decode (.edge 0b0100) = .ok .clkResync ∧
  decode (.due 0b0010 true) = .ok (.clkSample true) ∧
  decode (.rate 0x4B 0) = .ok .clkSwitchUp ∧
  decode (.rate 0xAB 0) = .ok .clkSwitchDown ∧
  decode (.ds 0b0111 false) = .ok (.dsDirect false) ∧
  decode (.ds 0b1111 true) = .ok (.dsForced true) ∧
  decode (.ds 0b1010 true) = .ok (.dsStuff true) ∧
  decode (.ds 0b1011 true) = .ok (.dsStuffError true) ∧
  decode (.ds 0b1001 false) = .ok (.dsPassSame false) ∧
  decode (.ds 0b1000 false) = .ok (.dsPassToggle false) ∧
  decode (.eng 0x00 0 0) = .ok (.idleSof false) ∧
  decode (.eng 0x11 11 0) = .ok (.idRtrSrr true) ∧
  decode (.eng 0x4B 5 0) = .ok (.caDlcFd true) ∧
  decode (.eng 0x5A 511 15) = .ok (.dataBit false) ∧
  decode (.eng 0x8A 20 8) = .ok (.crc17Fsb false) ∧
  decode (.eng 0xE1 0 0) = .ok (.errBit true) ∧
  decode (.eng 0xF0 0 0) = .error .unwrittenState ∧
  decode (.eng 0x20 2 0) = .error .slotOutOfRange ∧
  [RecKind.stdIdentifier, .extIdentifier, .classicControl, .fdControl, .data, .crc15, .crc17, .crc21,
    .stuffBitCount, .ack, .eof, .intermission, .error].map RecKind.code =
    [0, 1, 2, 3, 4, 5, 6, 7, 8, 9, 10, 11, 12] ∧
  [MarkKind.start, .zero, .one, .dot, .errorDot, .x, .errorX, .upArrow, .downArrow,
    .errorSquare].map MarkKind.code = [0, 1, 2, 3, 4, 5, 6, 7, 8, 9] ∧
  [EngState.idle, .identifier, .controlBase, .controlExtended, .controlAfterR0, .data, .sbc, .crc15,
    .crc17, .crc21, .crcdel, .ack, .endOfFrame, .intermission, .decoderError].map EngState.code =
    [0, 1, 2, 3, 4, 5, 6, 7, 8, 9, 10, 11, 12, 13, 14] ∧
  [FrameType.data, .remote, .fdData].map FrameType.code = [0, 1, 2] ∧
  [ErrCause.none, .stuff, .fixedStuff, .form, .crc15].map ErrCause.code = [0, 1, 2, 3, 4]

/-- No bit of an encoding is dropped: decoding an encoded micro-operation gives it back, in every slot
its row admits, with every operand its row admits and every value of the bits its mask leaves free. -/
def Obligations.EncodeThenDecodeInEverySlot : Prop :=
  ∀ (i : Instr) (slot : Slot), WellFormed i → admits i slot = true →
    decode (encodeAt i slot) = .ok i

/-- A selector that decodes is the encoding of what it decodes to, in an admitted slot: no selector falls
through to a row it does not belong to. -/
def Obligations.DecodedSelectorIsAnEncoding : Prop :=
  ∀ (sel : Selector) (i : Instr), decode sel = .ok i →
    ∃ slot : Slot, WellFormed i ∧ admits i slot = true ∧ encodeAt i slot = sel

/-- R90, R95, host rows: RESET exactly when `rst = 1`, else TICK with the raw level; CLK_RESYNC on an
edge; CLK_SAMPLE when `s ≥ nextCenter` after CLK_RESYNC. -/
def Obligations.HostRowsFollowResetEdgeAndDue : Prop :=
  ∀ (p : PortIn) (s : State),
    let v : Bit := p.raw ^^ p.cfg.invert
    let center : Int := if v = s.prevLevel then s.nextCenter else s.sampleIdx + (s.period / 2 : Nat)
    decode (hostSelector p s) = .ok (if p.rst then .reset else .tick p.raw) ∧
    (decode (.edge (hostWordOf p s)) = .ok .clkResync ↔ p.rst = false ∧ v ≠ s.prevLevel) ∧
    (decode (.due (hostWordOf p s) v) = .ok (.clkSample v) ↔
      p.rst = false ∧ center ≤ (s.sampleIdx : Int))

/-- R140: the destuffer operation and its outcome, in the rule's priority order. -/
def Obligations.DestufferSelectionFollowsPriority : Prop :=
  ∀ (s : State) (b : Bit),
    let chosen : DsOp × DsOutcome :=
      if s.dsActive = false then (.direct, .direct)
      else if s.state = .sbc ∧ s.fieldIdx = 0 then (.forced, .forced)
      else if s.runLength = 5 ∧ b ≠ s.lastBit then (.stuff, .stuff)
      else if s.runLength = 5 ∧ b = s.lastBit then (.stuffError, .stuffError)
      else if b = s.lastBit then (.passSame, .pass)
      else (.passToggle, .pass)
    decode (dsSelector s b) = .ok (chosen.1.instr b) ∧ chosen.1.outcome = chosen.2

/-- R90, R95: an engine row is selected exactly when the condition of the map holds; the switch rows by a
recessive BRS bit and by a recessive CRC delimiter at the data rate, and by nothing else. -/
def Obligations.EngineSelectionFollowsTheMap : Prop :=
  ∀ (s : State) (b : Bit),
    (∀ op : EngOp, decode (engSelector s b) = .ok (op.instr b) ↔ mapCondition op s b) ∧
    (decode (rateSelector s b) = .ok .clkSwitchUp ↔ mapCondition .caBrs s b ∧ b = true) ∧
    (decode (rateSelector s b) = .ok .clkSwitchDown ↔
      mapCondition .crcdelBit s b ∧ b = true ∧ s.dataRate = true)

/-- R90: in every state that keeps the invariant exactly one engine row is selected. -/
def Obligations.ExactlyOneEngineRowPerBit : Prop :=
  ∀ (s : State) (b : Bit), Inv s →
    ∃ op : EngOp, mapCondition op s b ∧ ∀ op' : EngOp, mapCondition op' s b → op' = op

/-! ## The step -/

/-- A step takes the ports of the next tick and runs the operation the decoder reads. That the ticks still
to come stand in State is the model's form of the sample timeline, log 1. -/
def Obligations.StepRunsTheDecodedOperation : Prop :=
  ∀ (s : State) (p : PortIn) (rest : List PortIn) (i : Instr),
    s.input = p :: rest → (p.rst = false → p.cfg = s.cfg) → decode (hostSelector p s) = .ok i →
    step s = exec i { s with cfg := p.cfg, input := rest }

/-- Where the model stops, by name: no tick is presented, the configuration changes without reset, the
configuration is outside the table of R44, or register values are the spec's unreachable ones: a run length
above 5, a bit that reaches the engine (destuffer outcome DIRECT, FORCED or PASS) in a slot without a row,
or a byte the buffer does not have. A TICK stops where the CLK_SAMPLE inside it does. The refusals and the
fault are the model's, logs 3, 4, 5 and 8. -/
def Obligations.StopsAreNamed : Prop :=
  ∀ s : State,
    let illegal (cfg : Config) : Prop :=
      cfg.arbRate.toNat = 0 ∨ cfg.sampleRate.toNat < cfg.arbRate.toNat ∨
        cfg.sampleRate.toNat < cfg.dataBitRate.toNat ∨ 100 < cfg.spArb.toNat ∨ 100 < cfg.spData.toNat
    (s.input = [] → step s = .refused .noSample) ∧
    (∀ (p : PortIn) (rest : List PortIn), s.input = p :: rest →
      (p.rst = false → p.cfg ≠ s.cfg → step s = .refused .configChangedWithoutReset) ∧
      ((p.rst = false → p.cfg = s.cfg) → illegal p.cfg → step s = .refused .illegalConfig)) ∧
    (illegal s.cfg → exec .reset s = .refused .illegalConfig ∧
      ∀ raw : Bit, exec (.tick raw) s = .refused .illegalConfig) ∧
    (∀ raw : Bit, s.cfg.legal = true →
      let v : Bit := raw ^^ s.cfg.invert
      let center : Int := if v = s.prevLevel then s.nextCenter else s.sampleIdx + (s.period / 2 : Nat)
      center ≤ (s.sampleIdx : Int) → ∀ r : Refusal,
        exec (.clkSample v)
          { s with recOut := none, markOut := none, nextCenter := center, prevLevel := v } =
            .refused r → exec (.tick raw) s = .refused r) ∧
    ∀ b : Bit,
      (5 < s.runLength.toNat → exec (.clkSample b) s = .refused .runLengthOutOfRange) ∧
      (s.runLength.toNat ≤ 5 →
        (s.dsActive = false ∨ (s.state = .sbc ∧ s.fieldIdx = 0) ∨ s.runLength ≠ 5) →
        (∀ op : EngOp, ¬ mapCondition op s b) →
        exec (.clkSample b) s = .refused .noOperationSelected) ∧
      (512 ≤ s.fieldIdx.toNat → exec (.dataBit b) s = .fault (.bufferIndex (s.fieldIdx.toNat / 8)))

/-- Beside `StopsAreNamed` and `TickComposesClockAndBitPath`: RESET, CLK_SAMPLE and the single operations
stop nowhere else, and CLK_SAMPLE never faults. A bit the destuffer keeps from the engine needs no row. -/
def Obligations.NothingElseStops : Prop :=
  ∀ s : State,
    (s.cfg.legal = true → ∃ t, exec .reset s = .next t) ∧
    (∀ i : Instr, isSingleOperation i = true → (∀ b, i = .dataBit b → s.fieldIdx.toNat < 512) →
      ∃ t, exec i s = .next t) ∧
    ∀ b : Bit,
      (s.runLength.toNat ≤ 5 →
        ((s.dsActive = true ∧ ¬ (s.state = .sbc ∧ s.fieldIdx = 0) ∧ s.runLength = 5) ∨
          ∃ op : EngOp, mapCondition op s b) →
        ∃ t, exec (.clkSample b) s = .next t) ∧
      ∀ f : Fault, exec (.clkSample b) s ≠ .fault f

/-- R121: TICK with no bit due, and TICK with a bit due in terms of CLK_SAMPLE. -/
def Obligations.TickComposesClockAndBitPath : Prop :=
  ∀ (raw : Bit) (s : State), s.cfg.legal = true →
    let v : Bit := raw ^^ s.cfg.invert
    let center : Int := if v = s.prevLevel then s.nextCenter else s.sampleIdx + (s.period / 2 : Nat)
    let u : State := { s with recOut := none, markOut := none, nextCenter := center, prevLevel := v }
    ((s.sampleIdx : Int) < center →
      exec (.tick raw) s = .next { u with sampleIdx := s.sampleIdx + 1 }) ∧
    (center ≤ (s.sampleIdx : Int) → ∀ t, exec (.clkSample v) u = .next t →
      exec (.tick raw) s = .next { t with sampleIdx := s.sampleIdx + 1 })

/-- R121 (a), R210 (b): an edge in the same tick as a due sample defers the sample, unless `T = 1`. -/
def Obligations.EdgeDefersTheDueSample : Prop :=
  ∀ (raw : Bit) (s : State), s.cfg.legal = true → (raw ^^ s.cfg.invert) ≠ s.prevLevel →
    (2 ≤ s.period →
      exec (.tick raw) s = .next { s with
        recOut := none, markOut := none
        nextCenter := s.sampleIdx + (s.period / 2 : Nat)
        prevLevel := raw ^^ s.cfg.invert
        sampleIdx := s.sampleIdx + 1 }) ∧
    (s.period = 1 → Inv s →
      ∃ t, exec (.tick raw) s = .next t ∧ t.prevBit = (raw ^^ s.cfg.invert))

/-- R211, R122, R123, R148: CLK_SAMPLE moves the centre one period on, runs the selected destuffer
operation, and only for a bit that reaches the engine feeds CRC-15 and runs the selected engine operation;
the bit is recorded in `prevBit` in every case. -/
def Obligations.ClkSampleRunsTheSelectedOperations : Prop :=
  ∀ (v : Bit) (s : State), s.runLength.toNat ≤ 5 →
    let s0 : State := { s with nextCenter := s.sampleIdx + (s.period : Nat) }
    ∃ (op : DsOp) (s1 : State), decode (dsSelector s0 v) = .ok (op.instr v) ∧
      exec (op.instr v) s0 = .next s1 ∧
      ((op = .stuff ∨ op = .stuffError) → exec (.clkSample v) s = .next { s1 with prevBit := v }) ∧
      (¬ (op = .stuff ∨ op = .stuffError) → ∀ (i : Instr) (s2 : State),
        decode (engSelector s1 v) = .ok i →
        exec i { s1 with
          crc15 :=
            if s1.state ∈ [.identifier, .controlBase, .controlExtended, .controlAfterR0, .data, .crc15]
            then crcStep poly15 s1.crc15 v else s1.crc15 } = .next s2 →
        exec (.clkSample v) s = .next { s2 with prevBit := v })

/-- CLK_SAMPLE answers a next state in every state that keeps the invariant; it moves neither the sample
index, nor the ports, nor `prevLevel`. -/
def Obligations.ClkSampleCompletesUnderTheInvariant : Prop :=
  ∀ (v : Bit) (s : State), Inv s →
    ∃ t, exec (.clkSample v) s = .next t ∧ t.prevBit = v ∧ t.sampleIdx = s.sampleIdx ∧
      t.prevLevel = s.prevLevel ∧ t.cfg = s.cfg ∧ t.input = s.input

/-- R242, R274: every TICK adds one to the sample index; TICK completes in every state that keeps the
invariant. -/
def Obligations.TickCompletesAndCountsTheSample : Prop :=
  ∀ (raw : Bit) (s : State),
    (Inv s → ∃ t, exec (.tick raw) s = .next t ∧ t.prevLevel = (raw ^^ s.cfg.invert)) ∧
    ∀ t, exec (.tick raw) s = .next t →
      t.sampleIdx = s.sampleIdx + 1 ∧ t.cfg = s.cfg ∧ t.input = s.input

/-- Every admissible tick of a state that keeps the invariant completes, and so does every tick of an
admissible timeline, from such a state and from the reset state of any legal configuration: no fault and no
refusal before the end of the timeline. -/
def Obligations.AdmissibleStepsComplete : Prop :=
  (∀ (s : State) (p : PortIn) (rest : List PortIn),
    Inv s → s.input = p :: rest → admissible p s →
    ∃ t, step s = .next t ∧ t.cfg = p.cfg ∧ t.input = rest ∧
      t.sampleIdx = if p.rst then 0 else s.sampleIdx + 1) ∧
  (∀ s : State, Inv s → admissibleRun s.input s.cfg →
    (trace s.input.length s).length = s.input.length) ∧
  ∀ (cfg : Config) (input : List PortIn), cfg.legal = true → admissibleRun input cfg →
    (trace input.length (State.resetWith cfg input)).length = input.length

/-- Every step keeps the invariant. -/
def Obligations.StepKeepsTheInvariant : Prop :=
  ∀ s t : State, Inv s → step s = .next t → Inv t

/-- The state RESET leaves keeps the invariant, under every legal configuration. The configuration that
`State.reset` itself holds is the model's choice, log 2. -/
def Obligations.ResetMeetsTheInvariant : Prop :=
  Inv State.reset ∧
  ∀ (cfg : Config) (input : List PortIn), cfg.legal = true → Inv (State.resetWith cfg input)

/-- R24: the run length after a tick, and when it can be 0. -/
def Obligations.RunLengthAfterEveryTick : Prop :=
  ∀ (s t : State) (p : PortIn) (rest : List PortIn),
    Inv s → s.input = p :: rest → step s = .next t →
    t.runLength.toNat ≤ 5 ∧
    (t.runLength.toNat = 0 → t.state = .idle ∧ (p.rst = false → s.runLength.toNat = 0)) ∧
    (t.dsActive = true → t.lastBit = t.prevBit)

/-- R212: the data rate is never in force in IDLE, and a tick that leaves a state with the data rate off
turns it on only at a recessive BRS bit. -/
def Obligations.DataRateOnlyAfterRecessiveBrs : Prop :=
  ∀ s t : State, Inv s → step s = .next t →
    (t.state = .idle → t.dataRate = false) ∧
    (s.dataRate = false → t.dataRate = true →
      s.state = .controlAfterR0 ∧ s.frameType = .fdData ∧ s.fieldIdx = 0 ∧
        t.brs = true ∧ t.prevBit = true)

/-! ## Reset -/

/-- R260: the value RESET loads in every register. -/
def Obligations.ResetLoadsEveryRegister : Prop :=
  ∀ s : State, s.cfg.legal = true →
    exec .reset s = .next
      { cfg := s.cfg, input := s.input, recOut := none, markOut := none
        sampleIdx := 0, prevLevel := true
        nextCenter := (s.cfg.sampleRate.toNat / s.cfg.arbRate.toNat / 2 : Nat), dataRate := false
        dsActive := false, runLength := 0, lastBit := true, stuffCount := 0
        crc15 := 0, crc17 := 0, crc21 := 0
        state := .idle, fieldIdx := 0
        identifier := 0, rtr := false, ide := false, frameType := .data, brs := false, esi := false
        dlc := 0, buf := [], crcRx := 0, sbcBits := 0, ackSlot := true, prevBit := true
        fieldStart := 0, errCount := 0, errCause := .none, errState := .idle } ∧
    ∀ (t : State) (k : Nat), exec .reset s = .next t → t.bufRead k = 0

/-- R260, R262, R263: a reset tick depends on the configuration it presents and on nothing else: not on
the raw level, and not on any register. -/
def Obligations.ResetTickForgetsEverything : Prop :=
  ∀ (s u : State) (p q : PortIn) (rest : List PortIn),
    s.input = p :: rest → u.input = q :: rest → p.rst = true → q.rst = true → p.cfg = q.cfg →
    step s = step u

/-! ## Bit clock -/

/-- R22, R45, R15: the period in force, at least one sample; start and end of a normal bit. -/
def Obligations.PeriodAndBitExtent : Prop :=
  ∀ s : State,
    let tArb : Nat := s.cfg.sampleRate.toNat / s.cfg.arbRate.toNat
    let tData : Nat :=
      if s.cfg.dataBitRate.toNat = 0 then tArb else s.cfg.sampleRate.toNat / s.cfg.dataBitRate.toNat
    s.period = (if s.dataRate = true then tData else tArb) ∧
    (s.cfg.legal = true → 1 ≤ s.period) ∧
    s.bitStart = (s.sampleIdx : Int) - (s.period / 2 : Nat) ∧
    s.bitEnd = s.bitStart + (s.period : Nat)

/-- R210, R213 to R216: the resynchronisation centres the bit that starts at the edge; a switch rebases
the cursor by the blended transition bit. -/
def Obligations.ClockOperationResults : Prop :=
  ∀ s : State,
    let ta : Int := (s.cfg.tArb : Nat)
    let td : Int := (s.cfg.tData : Nat)
    let spa : Int := (s.cfg.spArb.toNat : Nat)
    let spd : Int := (s.cfg.spData.toNat : Nat)
    exec .clkResync s = .next { s with nextCenter := (s.sampleIdx : Int) + (s.period / 2 : Nat) } ∧
    exec .clkSwitchUp s = .next { s with
      nextCenter := (s.sampleIdx : Int) - ta / 2 + (spa * ta + (100 - spd) * td) / 100 - td / 2 + td
      dataRate := true } ∧
    exec .clkSwitchDown s = .next { s with
      nextCenter := (s.sampleIdx : Int) - td / 2 + (spd * td + (100 - spa) * ta) / 100 - ta / 2 + ta
      dataRate := false }

/-- R213: the blended length lies between 0 and the sum of the two periods. -/
def Obligations.BlendedLengthIsBounded : Prop :=
  ∀ (cfg : Config) (up : Bit), cfg.legal = true →
    0 ≤ cfg.transition up ∧ cfg.transition up ≤ (cfg.tArb + cfg.tData : Nat)

/-! ## CRC engines -/

/-- R130 to R133: each CRC step doubles the register, drops the top bit, and adds the polynomial modulo 2
exactly when the bit differs from the dropped one. -/
def Obligations.CrcStepsAreShiftAndXor : Prop :=
  ∀ (b : Bit) (s : State),
    let next (w poly acc : Nat) : Nat :=
      if (b = true ↔ 2 ^ (w - 1) ≤ acc) then 2 * acc % 2 ^ w else Nat.xor (2 * acc % 2 ^ w) poly
    exec (.crc15Step b) s = .next { s with crc15 := crcStep poly15 s.crc15 b } ∧
    exec (.crc17Step b) s = .next { s with crc17 := crcStep poly17 s.crc17 b } ∧
    exec (.crc21Step b) s = .next { s with crc21 := crcStep poly21 s.crc21 b } ∧
    (crcStep poly15 s.crc15 b).toNat = next 15 0x4599 s.crc15.toNat ∧
    (crcStep poly17 s.crc17 b).toNat = next 17 0x1685B s.crc17.toNat ∧
    (crcStep poly21 s.crc21 b).toNat = next 21 0x102899 s.crc21.toNat

/-- R138: feeding the bits of a value, most significant first, leaves 0 exactly when the value is the one
the engine held. -/
def Obligations.CrcFieldChecksExactlyItsAccumulator : Prop :=
  ∀ s : State,
    (∀ x : BitVec 15, ∃ t, execBits .crc15Step (bitsMsbFirst x) s = .next t ∧
      (t.crc15 = 0 ↔ x = s.crc15)) ∧
    (∀ x : BitVec 17, ∃ t, execBits .crc17Step (bitsMsbFirst x) s = .next t ∧
      (t.crc17 = 0 ↔ x = s.crc17)) ∧
    (∀ x : BitVec 21, ∃ t, execBits .crc21Step (bitsMsbFirst x) s = .next t ∧
      (t.crc21 = 0 ↔ x = s.crc21))

/-! ## Destuffer -/

/-- R141 to R146: the six destuffer operations. -/
def Obligations.DestufferOperationResults : Prop :=
  ∀ (b : Bit) (s : State),
    exec (.dsDirect b) s = .next s ∧
    exec (.dsForced b) s = .next { s with runLength := 1, lastBit := b } ∧
    exec (.dsStuff b) s = .next { s with
      markOut := some ⟨.x, s.sampleIdx⟩
      runLength := 1, lastBit := b
      stuffCount := BitVec.ofNat 8 ((s.stuffCount.toNat + 1) % 256)
      crc17 := crcStep poly17 s.crc17 b, crc21 := crcStep poly21 s.crc21 b } ∧
    exec (.dsStuffError b) s =
      .next (raiseError .stuff { s with markOut := some ⟨.errorX, s.sampleIdx⟩ }) ∧
    exec (.dsPassSame b) s = .next { s with
      runLength := s.runLength + 1
      crc17 := crcStep poly17 s.crc17 b, crc21 := crcStep poly21 s.crc21 b } ∧
    exec (.dsPassToggle b) s = .next { s with
      runLength := 1, lastBit := b
      crc17 := crcStep poly17 s.crc17 b, crc21 := crcStep poly21 s.crc21 b }

/-- R122, R143, R144, R147 (b), R235: after five equal bits, a bit taken by the clock that differs is
discarded before the engine, and a sixth equal bit raises STUFF before any engine check. -/
def Obligations.BitAfterARunOfFive : Prop :=
  ∀ (b : Bit) (s : State), s.dsActive = true → ¬ (s.state = .sbc ∧ s.fieldIdx = 0) →
    s.runLength = 5 →
    (b ≠ s.lastBit → exec (.clkSample b) s = .next { s with
      nextCenter := s.sampleIdx + (s.period : Nat)
      markOut := some ⟨.x, s.sampleIdx⟩
      runLength := 1, lastBit := b
      stuffCount := s.stuffCount + 1
      crc17 := crcStep poly17 s.crc17 b, crc21 := crcStep poly21 s.crc21 b
      prevBit := b }) ∧
    (b = s.lastBit → exec (.clkSample b) s = .next { s with
      nextCenter := s.sampleIdx + (s.period : Nat)
      markOut := some ⟨.errorX, s.sampleIdx⟩
      errState := s.state, state := .decoderError, dsActive := false, errCount := 0
      errCause := .stuff, dataRate := false, fieldIdx := 0
      prevBit := b })

/-- R141 (c), R231: no dynamic stuff bit and no STUFF error occurs in the SBC field. -/
def Obligations.NoDynamicStuffingInSbc : Prop :=
  ∀ (b : Bit) (s t : State), Inv s → s.state = .sbc → exec (.clkSample b) s = .next t →
    t.stuffCount = s.stuffCount ∧
    (t.state = .decoderError → t.errCause = .fixedStuff ∧ t.errState = .sbc ∧ s.fieldIdx = 0)

/-! ## Engine: header -/

/-- R149, R150, R134: a bit in IDLE. -/
def Obligations.IdleBitResults : Prop :=
  ∀ s : State,
    exec (.idleRecessive true) s = .next s ∧
    exec (.idleSof false) s = .next { s with
      identifier := 0, rtr := false, ide := false, frameType := .data, brs := false, esi := false
      dlc := 0, crcRx := 0, sbcBits := 0, ackSlot := true
      buf := [], stuffCount := 0
      crc15 := 0
      crc17 := if s.cfg.iso then 0x1685B else 0
      crc21 := if s.cfg.iso then 0x102899 else 0
      dsActive := true, runLength := 1, lastBit := false
      fieldStart := (s.sampleIdx : Int) - (s.period / 2 : Nat)
      fieldIdx := 0, state := .identifier
      markOut := some ⟨.start, s.sampleIdx⟩ }

/-- R32, R150: what an SOF leaves depends on no register of the discarded frame. -/
def Obligations.SofForgetsTheDiscardedFrame : Prop :=
  ∀ s u : State,
    s.cfg = u.cfg → s.input = u.input → s.recOut = u.recOut → s.sampleIdx = u.sampleIdx →
    s.prevLevel = u.prevLevel → s.nextCenter = u.nextCenter → s.dataRate = u.dataRate →
    s.prevBit = u.prevBit → s.errCount = u.errCount → s.errCause = u.errCause →
    s.errState = u.errState →
    exec (.idleSof false) s = exec (.idleSof false) u

/-- R151, R154: an identifier bit is shifted in from bit 0. -/
def Obligations.IdentifierBitShiftsIn : Prop :=
  ∀ (b : Bit) (s : State),
    let t : State := { s with
      fieldIdx := s.fieldIdx + 1
      identifier := BitVec.ofNat 29 ((2 * s.identifier.toNat + b.toNat) % 2 ^ 29)
      markOut := some ⟨if b then .one else .zero, s.sampleIdx⟩ }
    exec (.idBit b) s = .next t ∧ exec (.idExtBit b) s = .next t

/-- R61, R63, R91: the identifier is assembled most significant bit first, `{ID_A, ID_B}`, the SRR and
IDE bits between them left out, at whatever times the bits arrive. -/
def Obligations.IdentifierIsAssembledMsbFirst : Prop :=
  ∀ (a : BitVec 11) (x : BitVec 18) (srr : Bit) (s : State) (atA atX : List Between)
    (atSrr atIde : Between),
    s.identifier = 0 → s.fieldIdx = 0 → atA.length = 11 → atX.length = 18 →
    ∃ t1 t2 t3 t4 : State,
      execBitsAt .idBit (atA.zip (bitsMsbFirst a)) s = .next t1 ∧ t1.identifier = a.setWidth 29 ∧
        t1.fieldIdx = 11 ∧
      exec (.idRtrSrr srr) (atSrr.apply t1) = .next t2 ∧
      exec (.idIde true) (atIde.apply t2) = .next t3 ∧
      execBitsAt .idExtBit (atX.zip (bitsMsbFirst x)) t3 = .next t4 ∧ t4.identifier = a ++ x ∧
        t4.fieldIdx = 31

/-- R152, R153, R155, R82: the RTR or SRR bit, the IDE bit, and the RTR bit of an extended frame. -/
def Obligations.RtrIdeAndExtendedRtrResults : Prop :=
  ∀ (b : Bit) (s : State),
    exec (.idRtrSrr b) s = .next { s with
      fieldIdx := 12, rtr := b
      markOut := some ⟨if b then .one else .zero, s.sampleIdx⟩ } ∧
    exec (.idIde b) s = .next (if b then
        { s with fieldIdx := 13, ide := true, markOut := some ⟨.one, s.sampleIdx⟩ }
      else
        { s with
          ide := false, markOut := some ⟨.zero, s.sampleIdx⟩
          frameType := if s.rtr then .remote else .data
          recOut := some ⟨.stdIdentifier, BitVec.ofNat 32 (s.identifier.toNat % 2 ^ 11),
            if s.rtr then 1 else 0, s.fieldStart, s.bitEnd⟩
          fieldStart := s.bitEnd
          state := .controlBase, fieldIdx := 0 }) ∧
    exec (.idExtRtr b) s = .next { s with
      rtr := b, markOut := some ⟨if b then .one else .zero, s.sampleIdx⟩
      frameType := if b then .remote else .data
      recOut := some ⟨.extIdentifier, BitVec.ofNat 32 s.identifier.toNat, if b then 1 else 0,
        s.fieldStart, s.bitEnd⟩
      fieldStart := s.bitEnd
      state := .controlExtended, fieldIdx := 0 }

/-- R156 to R159: the FDF bit of a base and of an extended frame; the res bit and r0: dominant, or a FORM
error. -/
def Obligations.FdfAndReservedBitResults : Prop :=
  ∀ (b : Bit) (s : State),
    let t : State := if b then
        raiseError .form { s with fieldIdx := 2, markOut := some ⟨.errorDot, s.sampleIdx⟩ }
      else
        { s with state := .controlAfterR0, fieldIdx := 0, markOut := some ⟨.dot, s.sampleIdx⟩ }
    exec (.cbFdf b) s = .next (if b then
        { s with fieldIdx := 1, frameType := .fdData, markOut := some ⟨.one, s.sampleIdx⟩ }
      else
        { s with state := .controlAfterR0, fieldIdx := 0, markOut := some ⟨.dot, s.sampleIdx⟩ }) ∧
    exec (.ceFdf b) s = .next { s with
      fieldIdx := 1, frameType := if b then .fdData else s.frameType
      markOut := some ⟨if b then .one else .zero, s.sampleIdx⟩ } ∧
    exec (.cbRes b) s = .next t ∧ exec (.ceR0 b) s = .next t

/-- R160, R29, R171: a DLC bit of a classic frame, and the routing after the fourth. -/
def Obligations.ClassicDlcBitResult : Prop :=
  ∀ (b : Bit) (s : State), s.frameType ≠ .fdData →
    let d : Nat := (2 * s.dlc.toNat + b.toNat) % 16
    let n : Nat := if s.frameType = .remote then 0 else min d 8
    let t : State := { s with
      dlc := BitVec.ofNat 4 d
      markOut := some ⟨if b then .one else .zero, s.sampleIdx⟩ }
    (s.fieldIdx.toNat ≠ 3 → exec (.caDlcClassic b) s = .next { t with fieldIdx := s.fieldIdx + 1 }) ∧
    (s.fieldIdx.toNat = 3 → exec (.caDlcClassic b) s = .next { t with
      recOut := some ⟨.classicControl, BitVec.ofNat 32 d, BitVec.ofNat 32 n, s.fieldStart, s.bitEnd⟩
      fieldStart := s.bitEnd
      state := if 0 < n then .data else .crc15
      fieldIdx := 0 })

/-- R161, R162: the BRS bit, with the switch to the data rate when recessive, and the ESI bit. -/
def Obligations.BrsAndEsiBitResults : Prop :=
  ∀ (b : Bit) (s : State),
    exec (.caBrs false) s = .next { s with
      fieldIdx := 1, brs := false, markOut := some ⟨.zero, s.sampleIdx⟩ } ∧
    exec (.caBrs true) s = exec .clkSwitchUp { s with
      fieldIdx := 1, brs := true, markOut := some ⟨.upArrow, s.sampleIdx⟩ } ∧
    (∃ t, exec (.caBrs b) s = .next t ∧ t.brs = b ∧ t.fieldIdx = 1 ∧
      t.dataRate = (s.dataRate || b)) ∧
    exec (.caEsi b) s = .next { s with
      fieldIdx := 2, esi := b, markOut := some ⟨if b then .one else .zero, s.sampleIdx⟩ }

/-- R163, R29, R171: a DLC bit of an FD frame, and the routing after the fourth. -/
def Obligations.FdDlcBitResult : Prop :=
  ∀ (b : Bit) (s : State), s.frameType = .fdData →
    let d : Nat := (2 * s.dlc.toNat + b.toNat) % 16
    let t : State := { s with
      dlc := BitVec.ofNat 4 d
      markOut := some ⟨if b then .one else .zero, s.sampleIdx⟩ }
    (s.fieldIdx.toNat ≠ 5 → exec (.caDlcFd b) s = .next { t with fieldIdx := s.fieldIdx + 1 }) ∧
    (s.fieldIdx.toNat = 5 → exec (.caDlcFd b) s = .next { t with
      recOut := some ⟨.fdControl, BitVec.ofNat 32 d,
        BitVec.ofNat 32 (s.brs.toNat + 2 * s.esi.toNat), s.fieldStart, s.bitEnd⟩
      fieldStart := s.bitEnd
      state := if d ≠ 0 then .data else if s.cfg.iso then .sbc else .crc17
      dsActive := if d = 0 ∧ s.cfg.iso = false then false else s.dsActive
      fieldIdx := 0 })

/-! ## Engine: payload and CRC -/

/-- R170, R171: a data bit is shifted into the byte of its index; no other byte of the buffer changes; a
completed byte is reported and the last bit of the field routes the frame. -/
def Obligations.DataBitShiftsIntoItsByte : Prop :=
  ∀ (b : Bit) (s : State), s.fieldIdx.toNat < 512 → Memory.wf s.buf = true →
    let k : Nat := s.fieldIdx.toNat / 8
    let n : Nat := s.fieldIdx.toNat + 1
    let byte : Byte := BitVec.ofNat 8 ((2 * (s.bufRead k).toNat + b.toNat) % 256)
    ∃ t, exec (.dataBit b) s = .next t ∧
      t.bufRead k = byte ∧ (∀ j, j ≠ k → t.bufRead j = s.bufRead j) ∧ Memory.wf t.buf = true ∧
      t = { s with
        buf := t.buf
        markOut := some ⟨if b then .one else .zero, s.sampleIdx⟩
        recOut := if n % 8 = 0 then
            some ⟨.data, BitVec.ofNat 32 byte.toNat, BitVec.ofNat 32 k, s.fieldStart, s.bitEnd⟩
          else s.recOut
        fieldStart := if n % 8 = 0 then s.bitEnd else s.fieldStart
        fieldIdx := if n = 8 * s.byteCount then 0 else BitVec.ofNat 10 n
        state := if n = 8 * s.byteCount then
            (if s.frameType ≠ .fdData then .crc15 else if s.cfg.iso then .sbc
              else if s.dlc.toNat ≤ 10 then .crc17 else .crc21)
          else s.state
        dsActive := if n = 8 * s.byteCount ∧ s.frameType = .fdData ∧ s.cfg.iso = false then false
          else s.dsActive }

/-- R61, R62, R65: the eight bits of data byte `k`, most significant first, at whatever times they arrive,
end in the Data record of that byte and index, which reaches from `fieldStart` to the end of the last bit. -/
def Obligations.DataByteIsAssembledAndReported : Prop :=
  ∀ (x : Byte) (k : Nat) (s : State) (before : List Between) (last : Between),
    k < s.byteCount → s.fieldIdx.toNat = 8 * k → Memory.wf s.buf = true → s.bufRead k = 0 →
    before.length = 7 →
    let lastEnd : Int := (last.sampleIdx : Int) - (s.period / 2 : Nat) + (s.period : Nat)
    ∃ t, execBitsAt .dataBit ((before ++ [last]).zip (bitsMsbFirst x)) s = .next t ∧ t.bufRead k = x ∧
      t.recOut = some ⟨.data, x.setWidth 32, BitVec.ofNat 32 k, s.fieldStart, lastEnd⟩ ∧
      t.fieldStart = lastEnd

/-- R29: the byte count, at every DLC. -/
def Obligations.ByteCountOfEveryDlc : Prop :=
  ∀ s : State,
    (s.frameType = .remote → s.byteCount = 0) ∧
    (s.frameType = .data → s.byteCount = min s.dlc.toNat 8) ∧
    (s.frameType = .fdData → s.byteCount =
      if s.dlc.toNat ≤ 8 then s.dlc.toNat
      else if s.dlc.toNat ≤ 12 then 4 * (s.dlc.toNat - 6)
      else 16 * (s.dlc.toNat - 11)) ∧
    s.byteCount ≤ 64

/-- R172, R173: the fixed stuff bit and the count bits of the SBC field. -/
def Obligations.SbcBitResults : Prop :=
  ∀ (b : Bit) (s : State),
    exec (.sbcFsb b) s = .next (if b = s.prevBit then
        raiseError .fixedStuff { s with fieldIdx := 1, markOut := some ⟨.errorX, s.sampleIdx⟩ }
      else { s with fieldIdx := 1, markOut := some ⟨.x, s.sampleIdx⟩ }) ∧
    exec (.sbcBit b) s = .next { s with
      fieldIdx := s.fieldIdx + 1
      sbcBits := BitVec.ofNat 4 ((2 * s.sbcBits.toNat + b.toNat) % 16)
      markOut := some ⟨if b then .one else .zero, s.sampleIdx⟩ }

/-- R174, R175, R82: the parity bit ends the SBC field: the decoded count, the two flags, destuffing off,
and the route to the CRC field. A wrong parity or count raises nothing. The decoding
table inverts the reflected binary Gray code. -/
def Obligations.SbcLastBitResult : Prop :=
  (∀ n : Fin 8, [0, 1, 3, 2, 7, 6, 4, 5].getD (n.val ^^^ (n.val / 2)) 0 = n.val) ∧
  ∀ (b : Bit) (s : State),
    let w : Nat := (2 * s.sbcBits.toNat + b.toNat) % 16
    let count : Nat := [0, 1, 3, 2, 7, 6, 4, 5].getD (w / 2) 0
    let parity : Nat := (w % 2 + w / 2 % 2 + w / 4 % 2 + w / 8) % 2
    let mismatch : Nat := if count = s.stuffCount.toNat % 8 then 0 else 1
    exec (.sbcLast b) s = .next { s with
      sbcBits := BitVec.ofNat 4 w
      markOut := some ⟨if b then .one else .zero, s.sampleIdx⟩
      recOut := some ⟨.stuffBitCount, BitVec.ofNat 32 count, BitVec.ofNat 32 (parity + 2 * mismatch),
        s.fieldStart, s.bitEnd⟩
      fieldStart := s.bitEnd
      dsActive := false
      state := if s.dlc.toNat ≤ 10 then .crc17 else .crc21
      fieldIdx := 0 }

/-- R177, R178, R82: the CRC15 field: the record stands before the error is entered. -/
def Obligations.Crc15FieldBitResults : Prop :=
  ∀ (b : Bit) (s : State),
    let rx : Nat := (2 * s.crcRx.toNat + b.toNat) % 2 ^ 15
    exec (.crc15Bit b) s = .next { s with
      fieldIdx := s.fieldIdx + 1, crcRx := BitVec.ofNat 21 rx
      markOut := some ⟨if b then .one else .zero, s.sampleIdx⟩ } ∧
    (s.crc15 = 0 → exec (.crc15Last b) s = .next { s with
      crcRx := BitVec.ofNat 21 rx
      markOut := some ⟨if b then .one else .zero, s.sampleIdx⟩
      recOut := some ⟨.crc15, BitVec.ofNat 32 rx, 0, s.fieldStart, s.bitEnd⟩
      fieldStart := s.bitEnd
      state := .crcdel, fieldIdx := 0 }) ∧
    (s.crc15 ≠ 0 → exec (.crc15Last b) s = .next (raiseError .crc15 { s with
      fieldIdx := 15, crcRx := BitVec.ofNat 21 rx
      markOut := some ⟨.errorSquare, s.sampleIdx⟩
      recOut := some ⟨.crc15, BitVec.ofNat 32 rx, 1, s.fieldStart, s.bitEnd⟩
      fieldStart := s.bitEnd }))

/-- R179 to R182: a fixed stuff bit of the CRC17 and CRC21 fields feeds no accumulator; a CRC-carrying
slot steps its own accumulator only. -/
def Obligations.FdCrcFieldBitResults : Prop :=
  ∀ (b : Bit) (s : State),
    let t : State := if b = s.prevBit then
        raiseError .fixedStuff
          { s with fieldIdx := s.fieldIdx + 1, markOut := some ⟨.errorX, s.sampleIdx⟩ }
      else { s with fieldIdx := s.fieldIdx + 1, markOut := some ⟨.x, s.sampleIdx⟩ }
    exec (.crc17Fsb b) s = .next t ∧ exec (.crc21Fsb b) s = .next t ∧
    exec (.crc17Bit b) s = .next { s with
      fieldIdx := s.fieldIdx + 1, crc17 := crcStep poly17 s.crc17 b
      crcRx := BitVec.ofNat 21 ((2 * s.crcRx.toNat + b.toNat) % 2 ^ 17)
      markOut := some ⟨if b then .one else .zero, s.sampleIdx⟩ } ∧
    exec (.crc21Bit b) s = .next { s with
      fieldIdx := s.fieldIdx + 1, crc21 := crcStep poly21 s.crc21 b
      crcRx := BitVec.ofNat 21 ((2 * s.crcRx.toNat + b.toNat) % 2 ^ 21)
      markOut := some ⟨if b then .one else .zero, s.sampleIdx⟩ }

/-- R183, R184, R232, R82: the last CRC-17 or CRC-21 bit: a mismatch is flagged and the frame goes on. -/
def Obligations.FdCrcLastBitResults : Prop :=
  ∀ (b : Bit) (s : State),
    let a17 : BitVec 17 := crcStep poly17 s.crc17 b
    let rx17 : Nat := (2 * s.crcRx.toNat + b.toNat) % 2 ^ 17
    let a21 : BitVec 21 := crcStep poly21 s.crc21 b
    let rx21 : Nat := (2 * s.crcRx.toNat + b.toNat) % 2 ^ 21
    let bitMark : MarkKind := if b then .one else .zero
    exec (.crc17Last b) s = .next { s with
      crc17 := a17, crcRx := BitVec.ofNat 21 rx17
      markOut := some ⟨if a17 = 0 then bitMark else .errorSquare, s.sampleIdx⟩
      recOut := some ⟨.crc17, BitVec.ofNat 32 rx17, if a17 = 0 then 0 else 1, s.fieldStart, s.bitEnd⟩
      fieldStart := s.bitEnd, state := .crcdel, fieldIdx := 0 } ∧
    exec (.crc21Last b) s = .next { s with
      crc21 := a21, crcRx := BitVec.ofNat 21 rx21
      markOut := some ⟨if a21 = 0 then bitMark else .errorSquare, s.sampleIdx⟩
      recOut := some ⟨.crc21, BitVec.ofNat 32 rx21, if a21 = 0 then 0 else 1, s.fieldStart, s.bitEnd⟩
      fieldStart := s.bitEnd, state := .crcdel, fieldIdx := 0 }

/-! ## Engine: trailer and recovery -/

/-- R190: the CRC delimiter: destuffing ends, and a recessive delimiter at the data rate switches back. -/
def Obligations.CrcDelimiterResults : Prop :=
  ∀ s : State,
    exec (.crcdelBit false) s = .next (raiseError .form { s with
      dsActive := false, markOut := some ⟨.errorDot, s.sampleIdx⟩ }) ∧
    (s.dataRate = false → exec (.crcdelBit true) s = .next { s with
      dsActive := false, markOut := some ⟨.dot, s.sampleIdx⟩, state := .ack, fieldIdx := 0 }) ∧
    (s.dataRate = true → exec (.crcdelBit true) s = exec .clkSwitchDown { s with
      dsActive := false, markOut := some ⟨.downArrow, s.sampleIdx⟩, state := .ack, fieldIdx := 0 }) ∧
    ∃ t, exec (.crcdelBit true) s = .next t ∧ t.state = .ack ∧ t.dataRate = false

/-- R192 to R195, R82: the ACK slot and delimiter, the EOF and intermission bits, and the records at the
last of each field. -/
def Obligations.AckEofAndIntermissionBitResults : Prop :=
  ∀ (b : Bit) (s : State),
    let next : State := { s with fieldIdx := s.fieldIdx + 1, markOut := some ⟨.dot, s.sampleIdx⟩ }
    let bad : State := raiseError .form
      { s with fieldIdx := s.fieldIdx + 1, markOut := some ⟨.errorDot, s.sampleIdx⟩ }
    exec (.ackSlot b) s = .next { s with
      fieldIdx := 1, ackSlot := b, markOut := some ⟨if b then .one else .zero, s.sampleIdx⟩ } ∧
    exec (.ackDel b) s = .next (if b then
        { s with
          markOut := some ⟨.dot, s.sampleIdx⟩
          recOut := some ⟨.ack, if s.ackSlot then 1 else 0, 0, s.fieldStart, s.bitEnd⟩
          fieldStart := s.bitEnd, state := .endOfFrame, fieldIdx := 0 }
      else raiseError .form { s with fieldIdx := 2, markOut := some ⟨.errorDot, s.sampleIdx⟩ }) ∧
    exec (.eofBit false) s = .next bad ∧ exec (.ifsBit false) s = .next bad ∧
    exec (.eofBit true) s = .next (if s.fieldIdx = 6 then
        { next with
          recOut := some ⟨.eof, 0, 0, s.fieldStart, s.bitEnd⟩
          fieldStart := s.bitEnd, state := .intermission, fieldIdx := 0 }
      else next) ∧
    exec (.ifsBit true) s = .next (if s.fieldIdx = 2 then
        { next with
          recOut := some ⟨.intermission, 0, 0, s.fieldStart, s.bitEnd⟩
          fieldStart := s.bitEnd, state := .idle, fieldIdx := 0 }
      else next)

/-- R198, R237, R82: a bit in DECODER_ERROR: the count, its restart, and the return at the eleventh
recessive bit, with the cause number of R87 and the state number of R84 in the Error record. -/
def Obligations.ErrorBitResults : Prop :=
  ∀ s : State,
    let cause : BitVec 32 := match s.errCause with
      | .none => 0 | .stuff => 1 | .fixedStuff => 2 | .form => 3 | .crc15 => 4
    let detected : BitVec 32 := match s.errState with
      | .idle => 0 | .identifier => 1 | .controlBase => 2 | .controlExtended => 3
      | .controlAfterR0 => 4 | .data => 5 | .sbc => 6 | .crc15 => 7 | .crc17 => 8 | .crc21 => 9
      | .crcdel => 10 | .ack => 11 | .endOfFrame => 12 | .intermission => 13 | .decoderError => 14
    exec (.errBit false) s = .next { s with errCount := 0 } ∧
    exec (.errBit true) s = .next (if s.errCount = 10 then
        { s with
          recOut := some ⟨.error, cause, detected, s.fieldStart, s.bitEnd⟩
          fieldStart := s.bitEnd, state := .idle, errCount := 0, fieldIdx := 0 }
      else { s with errCount := s.errCount + 1 })

/-! ## Errors -/

/-- R236: the error entry writes seven registers and keeps every other one. -/
def Obligations.ErrorEntryWritesSevenRegisters : Prop :=
  ∀ (cause : ErrCause) (s : State),
    raiseError cause s = { s with
      errState := s.state, state := .decoderError, dsActive := false, errCount := 0
      errCause := cause, dataRate := false, fieldIdx := 0 }

/-- R231, R236: an operation that enters DECODER_ERROR is one of the table, with the table's cause and
mark, and records the state it was in. -/
def Obligations.ErrorsAreThoseOfTheTable : Prop :=
  ∀ (i : Instr) (s t : State), isSingleOperation i = true → s.state ≠ .decoderError →
    exec i s = .next t → t.state = .decoderError →
    ∃ (cause : ErrCause) (mark : MarkKind), errorTable i = some (cause, mark) ∧
      t.errCause = cause ∧ t.markOut = some ⟨mark, s.sampleIdx⟩ ∧ t.errState = s.state ∧
      t.errCount = 0 ∧ t.dsActive = false ∧ t.dataRate = false ∧ t.fieldIdx = 0

/-- R238: no decoder error is raised inside DECODER_ERROR, and its bits get no mark (R83). -/
def Obligations.NoErrorInsideDecoderError : Prop :=
  ∀ (b : Bit) (s : State), Inv s → s.state = .decoderError →
    ∃ t, exec (.clkSample b) s = .next t ∧
      t.errCause = s.errCause ∧ t.errState = s.errState ∧ t.markOut = s.markOut ∧
      (b = false → t.state = .decoderError ∧ t.errCount = 0 ∧ t.recOut = s.recOut)

/-- R198, R237: from the error entry, up to ten recessive bits taken by the clock, at whatever times, leave
the block in DECODER_ERROR without output, and the eleventh returns it to IDLE with the Error record, which
reaches to the end of that bit. -/
def Obligations.RecoveryTakesElevenRecessiveBits : Prop :=
  ∀ (s : State) (before : List Between), Inv s → s.state = .decoderError → s.errCount = 0 →
    (∀ g ∈ before, g.runLength.toNat ≤ 5) → before.length ≤ 10 →
    (∃ t, execBitsAt .clkSample (before.map fun g => (g, true)) s = .next t ∧
      t.state = .decoderError ∧ t.errCount.toNat = before.length ∧
      (before ≠ [] → t.recOut = none ∧ t.markOut = none)) ∧
    ∀ last : Between, before.length = 10 → last.runLength.toNat ≤ 5 →
      ∃ t, execBitsAt .clkSample ((before ++ [last]).map fun g => (g, true)) s = .next t ∧
        t.state = .idle ∧ t.markOut = none ∧
        t.recOut = some ⟨.error, BitVec.ofNat 32 s.errCause.code.toNat,
          BitVec.ofNat 32 s.errState.code.toNat, s.fieldStart,
          (last.sampleIdx : Int) - (s.cfg.tArb / 2 : Nat) + (s.cfg.tArb : Nat)⟩

/-! ## Outputs -/

/-- R33, R70, R71: a record starts where the one before it ended; `fieldStart` moves only with a record,
at an SOF, and at reset. -/
def Obligations.RecordsAreContiguous : Prop :=
  ∀ (s t : State) (p : PortIn) (rest : List PortIn),
    Inv s → s.input = p :: rest → p.rst = false → step s = .next t →
    (∀ r, t.recOut = some r → r.startAt = s.fieldStart ∧ t.fieldStart = r.endAt) ∧
    (t.recOut = none → t.fieldStart = s.fieldStart ∨
      (s.state = .idle ∧ t.state = .identifier ∧ t.fieldStart = s.bitStart))

/-- R72, R83, R125: the mark of a tick stands at the sample of that tick; a tick of an idle line and a
tick in DECODER_ERROR put no mark out. -/
def Obligations.MarksStandAtTheirSample : Prop :=
  ∀ s t : State, Inv s → step s = .next t →
    (∀ m, t.markOut = some m → m.sample = s.sampleIdx) ∧
    (s.state = .idle → t.state = .idle → t.markOut = none ∧ t.recOut = none) ∧
    (s.state = .decoderError → t.markOut = none)

/-- R126, R120: no step reads an output port. -/
def Obligations.OutputsAreNeverRead : Prop :=
  ∀ (s : State) (r : Option FieldRec) (m : Option Mark),
    step { s with recOut := r, markOut := m } = step s

/-! ## Who writes what: the frames of the register groups -/

/-- R21, R28 (`prevBit`): clock registers, ports and `prevBit` under the single operations. -/
def Obligations.ClockRegisterWriters : Prop :=
  ∀ (i : Instr) (s t : State), isSingleOperation i = true → exec i s = .next t →
    t.cfg = s.cfg ∧ t.input = s.input ∧ t.sampleIdx = s.sampleIdx ∧ t.prevLevel = s.prevLevel ∧
    t.prevBit = s.prevBit ∧
    (t.nextCenter ≠ s.nextCenter →
      i = .clkResync ∨ i = .clkSwitchUp ∨ i = .clkSwitchDown ∨ i = .caBrs true ∨
      i = .crcdelBit true) ∧
    (t.dataRate ≠ s.dataRate →
      i = .clkSwitchUp ∨ i = .clkSwitchDown ∨ i = .caBrs true ∨ i = .crcdelBit true ∨
      t.state = .decoderError)

/-- R23, R25: destuffer and CRC registers under the single operations. -/
def Obligations.DestufferAndCrcRegisterWriters : Prop :=
  ∀ (i : Instr) (s t : State), isSingleOperation i = true → exec i s = .next t →
    ((t.runLength ≠ s.runLength ∨ t.lastBit ≠ s.lastBit) →
      ∃ b, i = .dsForced b ∨ i = .dsStuff b ∨ i = .dsPassSame b ∨ i = .dsPassToggle b ∨
        i = .idleSof b) ∧
    (t.stuffCount ≠ s.stuffCount → ∃ b, i = .dsStuff b ∨ i = .idleSof b) ∧
    (t.dsActive ≠ s.dsActive →
      ∃ b, i = .idleSof b ∨ i = .caDlcClassic b ∨ i = .caDlcFd b ∨ i = .dataBit b ∨ i = .sbcLast b ∨
        i = .crcdelBit b ∨ t.state = .decoderError) ∧
    (t.crc15 ≠ s.crc15 → ∃ b, i = .crc15Step b ∨ i = .idleSof b) ∧
    (t.crc17 ≠ s.crc17 →
      ∃ b, i = .crc17Step b ∨ i = .dsStuff b ∨ i = .dsPassSame b ∨ i = .dsPassToggle b ∨
        i = .idleSof b ∨ i = .crc17Bit b ∨ i = .crc17Last b) ∧
    (t.crc21 ≠ s.crc21 →
      ∃ b, i = .crc21Step b ∨ i = .dsStuff b ∨ i = .dsPassSame b ∨ i = .dsPassToggle b ∨
        i = .idleSof b ∨ i = .crc21Bit b ∨ i = .crc21Last b)

/-- R28, R31: the frame accumulator under the single operations; the data buffer byte by byte. -/
def Obligations.FrameAccumulatorWriters : Prop :=
  ∀ (i : Instr) (s t : State), isSingleOperation i = true → (∀ b, i ≠ .idleSof b) →
    exec i s = .next t →
    (t.identifier ≠ s.identifier → ∃ b, i = .idBit b ∨ i = .idExtBit b) ∧
    (t.rtr ≠ s.rtr → ∃ b, i = .idRtrSrr b ∨ i = .idExtRtr b) ∧
    (t.ide ≠ s.ide → ∃ b, i = .idIde b) ∧
    (t.frameType ≠ s.frameType → ∃ b, i = .idIde b ∨ i = .idExtRtr b ∨ i = .cbFdf b ∨ i = .ceFdf b) ∧
    (t.brs ≠ s.brs → ∃ b, i = .caBrs b) ∧
    (t.esi ≠ s.esi → ∃ b, i = .caEsi b) ∧
    (t.dlc ≠ s.dlc → ∃ b, i = .caDlcClassic b ∨ i = .caDlcFd b) ∧
    (t.crcRx ≠ s.crcRx → ∃ b, i = .crc15Bit b ∨ i = .crc15Last b ∨ i = .crc17Bit b ∨
      i = .crc17Last b ∨ i = .crc21Bit b ∨ i = .crc21Last b) ∧
    (t.sbcBits ≠ s.sbcBits → ∃ b, i = .sbcBit b ∨ i = .sbcLast b) ∧
    (t.ackSlot ≠ s.ackSlot → ∃ b, i = .ackSlot b) ∧
    ((∀ b, i ≠ .dataBit b) → ∀ k, t.bufRead k = s.bufRead k)

end
end

