-- ==== Sys2Proof/Laws/Buffer.lean ====
section
/-! SUPPORT. The data buffer: a read after a write gives the value written, a write leaves every other
index alone, and every write keeps the canonical form. -/

namespace Sys2Proof.Machine

@[simp] theorem memRead_nil (k : Nat) : memRead [] k = bufDefault := rfl

/-- An index below the first cell of a canonical list reads as the default. -/
theorem memRead_below {m : List Host.Cell} {lo k : Nat} (h : memWfFrom lo m = true) (hk : k < lo) :
    memRead m k = bufDefault := by
  induction m generalizing lo with
  | nil => rfl
  | cons c m ih =>
    obtain ⟨a, v⟩ := c
    simp only [memWfFrom, Bool.and_eq_true, decide_eq_true_eq] at h
    simp only [memRead, if_neg (show ¬ k = a by omega)]
    exact ih h.2 (by omega)

/-- Every index reads as the write says, in a canonical buffer. -/
theorem memRead_memWrite {m : List Host.Cell} {lo : Nat} (h : memWfFrom lo m = true) (k j : Nat)
    (v : Byte) : memRead (memWrite m k v) j = if j = k then v else memRead m j := by
  induction m generalizing lo with
  | nil => by_cases hv : v = bufDefault <;> by_cases hj : j = k <;> simp [memWrite, memRead, hv, hj]
  | cons c m ih =>
    obtain ⟨a, w⟩ := c
    simp only [memWfFrom, Bool.and_eq_true, decide_eq_true_eq] at h
    have low := memRead_below h.2 (k := k)
    by_cases h1 : k < a
    · have : memRead m k = bufDefault := low (by omega)
      by_cases hv : v = bufDefault <;> by_cases hj : j = k <;>
        simp [memWrite, memRead, h1, hv, hj, this, show ¬ k = a by omega]
    · by_cases h2 : k = a
      · subst h2
        have : memRead m k = bufDefault := low (by omega)
        by_cases hv : v = bufDefault <;> by_cases hj : j = k <;> simp [memWrite, memRead, hv, hj, this]
      · by_cases hj : j = a
        · simp [memWrite, memRead, h1, h2, hj, show ¬ a = k from fun e => h2 e.symm]
        · simp [memWrite, memRead, h1, h2, hj, ih h.2]

/-- A canonical list from an index on is canonical from any lower one on. -/
theorem memWfFrom_mono {m : List Host.Cell} {lo lo' : Nat} (h : memWfFrom lo m = true) (hl : lo' ≤ lo) :
    memWfFrom lo' m = true := by
  cases m with
  | nil => rfl
  | cons c m =>
    simp only [memWfFrom, Bool.and_eq_true, decide_eq_true_eq] at h ⊢
    exact ⟨⟨⟨by omega, h.1.1.2⟩, h.1.2⟩, h.2⟩

/-- A write inside the buffer keeps the canonical form. -/
theorem memWfFrom_memWrite {m : List Host.Cell} {lo k : Nat} (h : memWfFrom lo m = true) (v : Byte)
    (hlo : lo ≤ k) (hk : k < bufSize) : memWfFrom lo (memWrite m k v) = true := by
  induction m generalizing lo with
  | nil => by_cases hv : v = bufDefault <;> simp [memWrite, memWfFrom, hv, hlo, hk]
  | cons c m ih =>
    obtain ⟨a, w⟩ := c
    have h' := h
    simp only [memWfFrom, Bool.and_eq_true, decide_eq_true_eq] at h
    by_cases h1 : k < a
    · by_cases hv : v = bufDefault
      · simpa [memWrite, h1, hv] using h'
      · simp [memWrite, memWfFrom, h1, hv, hlo, hk, h.1.1.2, h.1.2, h.2, show k + 1 ≤ a by omega]
    · by_cases h2 : k = a
      · subst h2
        by_cases hv : v = bufDefault
        · simpa [memWrite, hv] using memWfFrom_mono h.2 (by omega)
        · simp [memWrite, memWfFrom, hv, hlo, hk, h.2]
      · simp [memWrite, memWfFrom, h1, h2, h.1.1.1, h.1.1.2, h.1.2, ih h.2 (show a + 1 ≤ k by omega)]

/-- A write inside the buffer keeps the canonical form. -/
theorem Memory.wf_memWrite {m : List Host.Cell} {k : Nat} (h : Memory.wf m = true) (v : Byte)
    (hk : k < bufSize) : Memory.wf (memWrite m k v) = true :=
  memWfFrom_memWrite h v (Nat.zero_le k) hk

/-- The empty buffer of reset and SOF is canonical. -/
@[simp] theorem Memory.wf_nil : Memory.wf [] = true := rfl

/-- All `bufWrite` can do. -/
theorem bufWrite_cases (k : Nat) (v : Byte) (s : State) :
    (k < bufSize ∧ bufWrite k v s = .next { s with buf := memWrite s.buf k v }) ∨
    (bufSize ≤ k ∧ bufWrite k v s = .fault (.bufferIndex k)) := by
  by_cases hk : k < bufSize
  · exact .inl ⟨hk, if_pos hk⟩
  · exact .inr ⟨by omega, if_neg hk⟩

end Sys2Proof.Machine
end

