-- ==== Sys2Proof/Laws/State.lean ====
section
/-! SUPPORT. One lemma per field per named update of State, each true by rfl, so that no later proof
unfolds a record update; and the derived readings of State that an update keeps. -/

namespace Sys2Proof.Machine

variable (s : State)

/-! ## clearOutputs -/

@[simp] theorem clearOutputs_cfg : (clearOutputs s).cfg = s.cfg := rfl
@[simp] theorem clearOutputs_input : (clearOutputs s).input = s.input := rfl
@[simp] theorem clearOutputs_recOut : (clearOutputs s).recOut = none := rfl
@[simp] theorem clearOutputs_markOut : (clearOutputs s).markOut = none := rfl
@[simp] theorem clearOutputs_sampleIdx : (clearOutputs s).sampleIdx = s.sampleIdx := rfl
@[simp] theorem clearOutputs_prevLevel : (clearOutputs s).prevLevel = s.prevLevel := rfl
@[simp] theorem clearOutputs_nextCenter : (clearOutputs s).nextCenter = s.nextCenter := rfl
@[simp] theorem clearOutputs_dataRate : (clearOutputs s).dataRate = s.dataRate := rfl
@[simp] theorem clearOutputs_dsActive : (clearOutputs s).dsActive = s.dsActive := rfl
@[simp] theorem clearOutputs_runLength : (clearOutputs s).runLength = s.runLength := rfl
@[simp] theorem clearOutputs_lastBit : (clearOutputs s).lastBit = s.lastBit := rfl
@[simp] theorem clearOutputs_stuffCount : (clearOutputs s).stuffCount = s.stuffCount := rfl
@[simp] theorem clearOutputs_crc15 : (clearOutputs s).crc15 = s.crc15 := rfl
@[simp] theorem clearOutputs_crc17 : (clearOutputs s).crc17 = s.crc17 := rfl
@[simp] theorem clearOutputs_crc21 : (clearOutputs s).crc21 = s.crc21 := rfl
@[simp] theorem clearOutputs_state : (clearOutputs s).state = s.state := rfl
@[simp] theorem clearOutputs_fieldIdx : (clearOutputs s).fieldIdx = s.fieldIdx := rfl
@[simp] theorem clearOutputs_identifier : (clearOutputs s).identifier = s.identifier := rfl
@[simp] theorem clearOutputs_rtr : (clearOutputs s).rtr = s.rtr := rfl
@[simp] theorem clearOutputs_ide : (clearOutputs s).ide = s.ide := rfl
@[simp] theorem clearOutputs_frameType : (clearOutputs s).frameType = s.frameType := rfl
@[simp] theorem clearOutputs_brs : (clearOutputs s).brs = s.brs := rfl
@[simp] theorem clearOutputs_esi : (clearOutputs s).esi = s.esi := rfl
@[simp] theorem clearOutputs_dlc : (clearOutputs s).dlc = s.dlc := rfl
@[simp] theorem clearOutputs_buf : (clearOutputs s).buf = s.buf := rfl
@[simp] theorem clearOutputs_crcRx : (clearOutputs s).crcRx = s.crcRx := rfl
@[simp] theorem clearOutputs_sbcBits : (clearOutputs s).sbcBits = s.sbcBits := rfl
@[simp] theorem clearOutputs_ackSlot : (clearOutputs s).ackSlot = s.ackSlot := rfl
@[simp] theorem clearOutputs_prevBit : (clearOutputs s).prevBit = s.prevBit := rfl
@[simp] theorem clearOutputs_fieldStart : (clearOutputs s).fieldStart = s.fieldStart := rfl
@[simp] theorem clearOutputs_errCount : (clearOutputs s).errCount = s.errCount := rfl
@[simp] theorem clearOutputs_errCause : (clearOutputs s).errCause = s.errCause := rfl
@[simp] theorem clearOutputs_errState : (clearOutputs s).errState = s.errState := rfl
@[simp] theorem clearOutputs_period : (clearOutputs s).period = s.period := rfl
@[simp] theorem clearOutputs_bitStart : (clearOutputs s).bitStart = s.bitStart := rfl
@[simp] theorem clearOutputs_bitEnd : (clearOutputs s).bitEnd = s.bitEnd := rfl
@[simp] theorem clearOutputs_byteCount : (clearOutputs s).byteCount = s.byteCount := rfl
@[simp] theorem clearOutputs_bufRead (j : Nat) : (clearOutputs s).bufRead j = s.bufRead j := rfl

/-! ## putMark -/

@[simp] theorem putMark_cfg (k : MarkKind) : (putMark k s).cfg = s.cfg := rfl
@[simp] theorem putMark_input (k : MarkKind) : (putMark k s).input = s.input := rfl
@[simp] theorem putMark_recOut (k : MarkKind) : (putMark k s).recOut = s.recOut := rfl
@[simp] theorem putMark_markOut (k : MarkKind) : (putMark k s).markOut = some ⟨k, s.sampleIdx⟩ := rfl
@[simp] theorem putMark_sampleIdx (k : MarkKind) : (putMark k s).sampleIdx = s.sampleIdx := rfl
@[simp] theorem putMark_prevLevel (k : MarkKind) : (putMark k s).prevLevel = s.prevLevel := rfl
@[simp] theorem putMark_nextCenter (k : MarkKind) : (putMark k s).nextCenter = s.nextCenter := rfl
@[simp] theorem putMark_dataRate (k : MarkKind) : (putMark k s).dataRate = s.dataRate := rfl
@[simp] theorem putMark_dsActive (k : MarkKind) : (putMark k s).dsActive = s.dsActive := rfl
@[simp] theorem putMark_runLength (k : MarkKind) : (putMark k s).runLength = s.runLength := rfl
@[simp] theorem putMark_lastBit (k : MarkKind) : (putMark k s).lastBit = s.lastBit := rfl
@[simp] theorem putMark_stuffCount (k : MarkKind) : (putMark k s).stuffCount = s.stuffCount := rfl
@[simp] theorem putMark_crc15 (k : MarkKind) : (putMark k s).crc15 = s.crc15 := rfl
@[simp] theorem putMark_crc17 (k : MarkKind) : (putMark k s).crc17 = s.crc17 := rfl
@[simp] theorem putMark_crc21 (k : MarkKind) : (putMark k s).crc21 = s.crc21 := rfl
@[simp] theorem putMark_state (k : MarkKind) : (putMark k s).state = s.state := rfl
@[simp] theorem putMark_fieldIdx (k : MarkKind) : (putMark k s).fieldIdx = s.fieldIdx := rfl
@[simp] theorem putMark_identifier (k : MarkKind) : (putMark k s).identifier = s.identifier := rfl
@[simp] theorem putMark_rtr (k : MarkKind) : (putMark k s).rtr = s.rtr := rfl
@[simp] theorem putMark_ide (k : MarkKind) : (putMark k s).ide = s.ide := rfl
@[simp] theorem putMark_frameType (k : MarkKind) : (putMark k s).frameType = s.frameType := rfl
@[simp] theorem putMark_brs (k : MarkKind) : (putMark k s).brs = s.brs := rfl
@[simp] theorem putMark_esi (k : MarkKind) : (putMark k s).esi = s.esi := rfl
@[simp] theorem putMark_dlc (k : MarkKind) : (putMark k s).dlc = s.dlc := rfl
@[simp] theorem putMark_buf (k : MarkKind) : (putMark k s).buf = s.buf := rfl
@[simp] theorem putMark_crcRx (k : MarkKind) : (putMark k s).crcRx = s.crcRx := rfl
@[simp] theorem putMark_sbcBits (k : MarkKind) : (putMark k s).sbcBits = s.sbcBits := rfl
@[simp] theorem putMark_ackSlot (k : MarkKind) : (putMark k s).ackSlot = s.ackSlot := rfl
@[simp] theorem putMark_prevBit (k : MarkKind) : (putMark k s).prevBit = s.prevBit := rfl
@[simp] theorem putMark_fieldStart (k : MarkKind) : (putMark k s).fieldStart = s.fieldStart := rfl
@[simp] theorem putMark_errCount (k : MarkKind) : (putMark k s).errCount = s.errCount := rfl
@[simp] theorem putMark_errCause (k : MarkKind) : (putMark k s).errCause = s.errCause := rfl
@[simp] theorem putMark_errState (k : MarkKind) : (putMark k s).errState = s.errState := rfl
@[simp] theorem putMark_period (k : MarkKind) : (putMark k s).period = s.period := rfl
@[simp] theorem putMark_bitStart (k : MarkKind) : (putMark k s).bitStart = s.bitStart := rfl
@[simp] theorem putMark_bitEnd (k : MarkKind) : (putMark k s).bitEnd = s.bitEnd := rfl
@[simp] theorem putMark_byteCount (k : MarkKind) : (putMark k s).byteCount = s.byteCount := rfl
@[simp] theorem putMark_bufRead (k : MarkKind) (j : Nat) : (putMark k s).bufRead j = s.bufRead j := rfl

/-! ## emit -/

@[simp] theorem emit_cfg (k : RecKind) (p q : BitVec 32) (e : Int) : (emit k p q e s).cfg = s.cfg := rfl
@[simp] theorem emit_input (k : RecKind) (p q : BitVec 32) (e : Int) : (emit k p q e s).input = s.input := rfl
@[simp] theorem emit_recOut (k : RecKind) (p q : BitVec 32) (e : Int) : (emit k p q e s).recOut = some ⟨k, p, q, s.fieldStart, e⟩ := rfl
@[simp] theorem emit_markOut (k : RecKind) (p q : BitVec 32) (e : Int) : (emit k p q e s).markOut = s.markOut := rfl
@[simp] theorem emit_sampleIdx (k : RecKind) (p q : BitVec 32) (e : Int) : (emit k p q e s).sampleIdx = s.sampleIdx := rfl
@[simp] theorem emit_prevLevel (k : RecKind) (p q : BitVec 32) (e : Int) : (emit k p q e s).prevLevel = s.prevLevel := rfl
@[simp] theorem emit_nextCenter (k : RecKind) (p q : BitVec 32) (e : Int) : (emit k p q e s).nextCenter = s.nextCenter := rfl
@[simp] theorem emit_dataRate (k : RecKind) (p q : BitVec 32) (e : Int) : (emit k p q e s).dataRate = s.dataRate := rfl
@[simp] theorem emit_dsActive (k : RecKind) (p q : BitVec 32) (e : Int) : (emit k p q e s).dsActive = s.dsActive := rfl
@[simp] theorem emit_runLength (k : RecKind) (p q : BitVec 32) (e : Int) : (emit k p q e s).runLength = s.runLength := rfl
@[simp] theorem emit_lastBit (k : RecKind) (p q : BitVec 32) (e : Int) : (emit k p q e s).lastBit = s.lastBit := rfl
@[simp] theorem emit_stuffCount (k : RecKind) (p q : BitVec 32) (e : Int) : (emit k p q e s).stuffCount = s.stuffCount := rfl
@[simp] theorem emit_crc15 (k : RecKind) (p q : BitVec 32) (e : Int) : (emit k p q e s).crc15 = s.crc15 := rfl
@[simp] theorem emit_crc17 (k : RecKind) (p q : BitVec 32) (e : Int) : (emit k p q e s).crc17 = s.crc17 := rfl
@[simp] theorem emit_crc21 (k : RecKind) (p q : BitVec 32) (e : Int) : (emit k p q e s).crc21 = s.crc21 := rfl
@[simp] theorem emit_state (k : RecKind) (p q : BitVec 32) (e : Int) : (emit k p q e s).state = s.state := rfl
@[simp] theorem emit_fieldIdx (k : RecKind) (p q : BitVec 32) (e : Int) : (emit k p q e s).fieldIdx = s.fieldIdx := rfl
@[simp] theorem emit_identifier (k : RecKind) (p q : BitVec 32) (e : Int) : (emit k p q e s).identifier = s.identifier := rfl
@[simp] theorem emit_rtr (k : RecKind) (p q : BitVec 32) (e : Int) : (emit k p q e s).rtr = s.rtr := rfl
@[simp] theorem emit_ide (k : RecKind) (p q : BitVec 32) (e : Int) : (emit k p q e s).ide = s.ide := rfl
@[simp] theorem emit_frameType (k : RecKind) (p q : BitVec 32) (e : Int) : (emit k p q e s).frameType = s.frameType := rfl
@[simp] theorem emit_brs (k : RecKind) (p q : BitVec 32) (e : Int) : (emit k p q e s).brs = s.brs := rfl
@[simp] theorem emit_esi (k : RecKind) (p q : BitVec 32) (e : Int) : (emit k p q e s).esi = s.esi := rfl
@[simp] theorem emit_dlc (k : RecKind) (p q : BitVec 32) (e : Int) : (emit k p q e s).dlc = s.dlc := rfl
@[simp] theorem emit_buf (k : RecKind) (p q : BitVec 32) (e : Int) : (emit k p q e s).buf = s.buf := rfl
@[simp] theorem emit_crcRx (k : RecKind) (p q : BitVec 32) (e : Int) : (emit k p q e s).crcRx = s.crcRx := rfl
@[simp] theorem emit_sbcBits (k : RecKind) (p q : BitVec 32) (e : Int) : (emit k p q e s).sbcBits = s.sbcBits := rfl
@[simp] theorem emit_ackSlot (k : RecKind) (p q : BitVec 32) (e : Int) : (emit k p q e s).ackSlot = s.ackSlot := rfl
@[simp] theorem emit_prevBit (k : RecKind) (p q : BitVec 32) (e : Int) : (emit k p q e s).prevBit = s.prevBit := rfl
@[simp] theorem emit_fieldStart (k : RecKind) (p q : BitVec 32) (e : Int) : (emit k p q e s).fieldStart = e := rfl
@[simp] theorem emit_errCount (k : RecKind) (p q : BitVec 32) (e : Int) : (emit k p q e s).errCount = s.errCount := rfl
@[simp] theorem emit_errCause (k : RecKind) (p q : BitVec 32) (e : Int) : (emit k p q e s).errCause = s.errCause := rfl
@[simp] theorem emit_errState (k : RecKind) (p q : BitVec 32) (e : Int) : (emit k p q e s).errState = s.errState := rfl
@[simp] theorem emit_period (k : RecKind) (p q : BitVec 32) (e : Int) : (emit k p q e s).period = s.period := rfl
@[simp] theorem emit_bitStart (k : RecKind) (p q : BitVec 32) (e : Int) : (emit k p q e s).bitStart = s.bitStart := rfl
@[simp] theorem emit_bitEnd (k : RecKind) (p q : BitVec 32) (e : Int) : (emit k p q e s).bitEnd = s.bitEnd := rfl
@[simp] theorem emit_byteCount (k : RecKind) (p q : BitVec 32) (e : Int) : (emit k p q e s).byteCount = s.byteCount := rfl
@[simp] theorem emit_bufRead (k : RecKind) (p q : BitVec 32) (e : Int) (j : Nat) : (emit k p q e s).bufRead j = s.bufRead j := rfl

/-! ## goto -/

@[simp] theorem goto_cfg (st : EngState) : (goto st s).cfg = s.cfg := rfl
@[simp] theorem goto_input (st : EngState) : (goto st s).input = s.input := rfl
@[simp] theorem goto_recOut (st : EngState) : (goto st s).recOut = s.recOut := rfl
@[simp] theorem goto_markOut (st : EngState) : (goto st s).markOut = s.markOut := rfl
@[simp] theorem goto_sampleIdx (st : EngState) : (goto st s).sampleIdx = s.sampleIdx := rfl
@[simp] theorem goto_prevLevel (st : EngState) : (goto st s).prevLevel = s.prevLevel := rfl
@[simp] theorem goto_nextCenter (st : EngState) : (goto st s).nextCenter = s.nextCenter := rfl
@[simp] theorem goto_dataRate (st : EngState) : (goto st s).dataRate = s.dataRate := rfl
@[simp] theorem goto_dsActive (st : EngState) : (goto st s).dsActive = s.dsActive := rfl
@[simp] theorem goto_runLength (st : EngState) : (goto st s).runLength = s.runLength := rfl
@[simp] theorem goto_lastBit (st : EngState) : (goto st s).lastBit = s.lastBit := rfl
@[simp] theorem goto_stuffCount (st : EngState) : (goto st s).stuffCount = s.stuffCount := rfl
@[simp] theorem goto_crc15 (st : EngState) : (goto st s).crc15 = s.crc15 := rfl
@[simp] theorem goto_crc17 (st : EngState) : (goto st s).crc17 = s.crc17 := rfl
@[simp] theorem goto_crc21 (st : EngState) : (goto st s).crc21 = s.crc21 := rfl
@[simp] theorem goto_state (st : EngState) : (goto st s).state = st := rfl
@[simp] theorem goto_fieldIdx (st : EngState) : (goto st s).fieldIdx = 0 := rfl
@[simp] theorem goto_identifier (st : EngState) : (goto st s).identifier = s.identifier := rfl
@[simp] theorem goto_rtr (st : EngState) : (goto st s).rtr = s.rtr := rfl
@[simp] theorem goto_ide (st : EngState) : (goto st s).ide = s.ide := rfl
@[simp] theorem goto_frameType (st : EngState) : (goto st s).frameType = s.frameType := rfl
@[simp] theorem goto_brs (st : EngState) : (goto st s).brs = s.brs := rfl
@[simp] theorem goto_esi (st : EngState) : (goto st s).esi = s.esi := rfl
@[simp] theorem goto_dlc (st : EngState) : (goto st s).dlc = s.dlc := rfl
@[simp] theorem goto_buf (st : EngState) : (goto st s).buf = s.buf := rfl
@[simp] theorem goto_crcRx (st : EngState) : (goto st s).crcRx = s.crcRx := rfl
@[simp] theorem goto_sbcBits (st : EngState) : (goto st s).sbcBits = s.sbcBits := rfl
@[simp] theorem goto_ackSlot (st : EngState) : (goto st s).ackSlot = s.ackSlot := rfl
@[simp] theorem goto_prevBit (st : EngState) : (goto st s).prevBit = s.prevBit := rfl
@[simp] theorem goto_fieldStart (st : EngState) : (goto st s).fieldStart = s.fieldStart := rfl
@[simp] theorem goto_errCount (st : EngState) : (goto st s).errCount = s.errCount := rfl
@[simp] theorem goto_errCause (st : EngState) : (goto st s).errCause = s.errCause := rfl
@[simp] theorem goto_errState (st : EngState) : (goto st s).errState = s.errState := rfl
@[simp] theorem goto_period (st : EngState) : (goto st s).period = s.period := rfl
@[simp] theorem goto_bitStart (st : EngState) : (goto st s).bitStart = s.bitStart := rfl
@[simp] theorem goto_bitEnd (st : EngState) : (goto st s).bitEnd = s.bitEnd := rfl
@[simp] theorem goto_byteCount (st : EngState) : (goto st s).byteCount = s.byteCount := rfl
@[simp] theorem goto_bufRead (st : EngState) (j : Nat) : (goto st s).bufRead j = s.bufRead j := rfl

/-! ## advance -/

@[simp] theorem advance_cfg : (advance s).cfg = s.cfg := rfl
@[simp] theorem advance_input : (advance s).input = s.input := rfl
@[simp] theorem advance_recOut : (advance s).recOut = s.recOut := rfl
@[simp] theorem advance_markOut : (advance s).markOut = s.markOut := rfl
@[simp] theorem advance_sampleIdx : (advance s).sampleIdx = s.sampleIdx := rfl
@[simp] theorem advance_prevLevel : (advance s).prevLevel = s.prevLevel := rfl
@[simp] theorem advance_nextCenter : (advance s).nextCenter = s.nextCenter := rfl
@[simp] theorem advance_dataRate : (advance s).dataRate = s.dataRate := rfl
@[simp] theorem advance_dsActive : (advance s).dsActive = s.dsActive := rfl
@[simp] theorem advance_runLength : (advance s).runLength = s.runLength := rfl
@[simp] theorem advance_lastBit : (advance s).lastBit = s.lastBit := rfl
@[simp] theorem advance_stuffCount : (advance s).stuffCount = s.stuffCount := rfl
@[simp] theorem advance_crc15 : (advance s).crc15 = s.crc15 := rfl
@[simp] theorem advance_crc17 : (advance s).crc17 = s.crc17 := rfl
@[simp] theorem advance_crc21 : (advance s).crc21 = s.crc21 := rfl
@[simp] theorem advance_state : (advance s).state = s.state := rfl
@[simp] theorem advance_fieldIdx : (advance s).fieldIdx = s.fieldIdx + 1 := rfl
@[simp] theorem advance_identifier : (advance s).identifier = s.identifier := rfl
@[simp] theorem advance_rtr : (advance s).rtr = s.rtr := rfl
@[simp] theorem advance_ide : (advance s).ide = s.ide := rfl
@[simp] theorem advance_frameType : (advance s).frameType = s.frameType := rfl
@[simp] theorem advance_brs : (advance s).brs = s.brs := rfl
@[simp] theorem advance_esi : (advance s).esi = s.esi := rfl
@[simp] theorem advance_dlc : (advance s).dlc = s.dlc := rfl
@[simp] theorem advance_buf : (advance s).buf = s.buf := rfl
@[simp] theorem advance_crcRx : (advance s).crcRx = s.crcRx := rfl
@[simp] theorem advance_sbcBits : (advance s).sbcBits = s.sbcBits := rfl
@[simp] theorem advance_ackSlot : (advance s).ackSlot = s.ackSlot := rfl
@[simp] theorem advance_prevBit : (advance s).prevBit = s.prevBit := rfl
@[simp] theorem advance_fieldStart : (advance s).fieldStart = s.fieldStart := rfl
@[simp] theorem advance_errCount : (advance s).errCount = s.errCount := rfl
@[simp] theorem advance_errCause : (advance s).errCause = s.errCause := rfl
@[simp] theorem advance_errState : (advance s).errState = s.errState := rfl
@[simp] theorem advance_period : (advance s).period = s.period := rfl
@[simp] theorem advance_bitStart : (advance s).bitStart = s.bitStart := rfl
@[simp] theorem advance_bitEnd : (advance s).bitEnd = s.bitEnd := rfl
@[simp] theorem advance_byteCount : (advance s).byteCount = s.byteCount := rfl
@[simp] theorem advance_bufRead (j : Nat) : (advance s).bufRead j = s.bufRead j := rfl

/-! ## setFieldIdx -/

@[simp] theorem setFieldIdx_cfg (i : BitVec 10) : (setFieldIdx i s).cfg = s.cfg := rfl
@[simp] theorem setFieldIdx_input (i : BitVec 10) : (setFieldIdx i s).input = s.input := rfl
@[simp] theorem setFieldIdx_recOut (i : BitVec 10) : (setFieldIdx i s).recOut = s.recOut := rfl
@[simp] theorem setFieldIdx_markOut (i : BitVec 10) : (setFieldIdx i s).markOut = s.markOut := rfl
@[simp] theorem setFieldIdx_sampleIdx (i : BitVec 10) : (setFieldIdx i s).sampleIdx = s.sampleIdx := rfl
@[simp] theorem setFieldIdx_prevLevel (i : BitVec 10) : (setFieldIdx i s).prevLevel = s.prevLevel := rfl
@[simp] theorem setFieldIdx_nextCenter (i : BitVec 10) : (setFieldIdx i s).nextCenter = s.nextCenter := rfl
@[simp] theorem setFieldIdx_dataRate (i : BitVec 10) : (setFieldIdx i s).dataRate = s.dataRate := rfl
@[simp] theorem setFieldIdx_dsActive (i : BitVec 10) : (setFieldIdx i s).dsActive = s.dsActive := rfl
@[simp] theorem setFieldIdx_runLength (i : BitVec 10) : (setFieldIdx i s).runLength = s.runLength := rfl
@[simp] theorem setFieldIdx_lastBit (i : BitVec 10) : (setFieldIdx i s).lastBit = s.lastBit := rfl
@[simp] theorem setFieldIdx_stuffCount (i : BitVec 10) : (setFieldIdx i s).stuffCount = s.stuffCount := rfl
@[simp] theorem setFieldIdx_crc15 (i : BitVec 10) : (setFieldIdx i s).crc15 = s.crc15 := rfl
@[simp] theorem setFieldIdx_crc17 (i : BitVec 10) : (setFieldIdx i s).crc17 = s.crc17 := rfl
@[simp] theorem setFieldIdx_crc21 (i : BitVec 10) : (setFieldIdx i s).crc21 = s.crc21 := rfl
@[simp] theorem setFieldIdx_state (i : BitVec 10) : (setFieldIdx i s).state = s.state := rfl
@[simp] theorem setFieldIdx_fieldIdx (i : BitVec 10) : (setFieldIdx i s).fieldIdx = i := rfl
@[simp] theorem setFieldIdx_identifier (i : BitVec 10) : (setFieldIdx i s).identifier = s.identifier := rfl
@[simp] theorem setFieldIdx_rtr (i : BitVec 10) : (setFieldIdx i s).rtr = s.rtr := rfl
@[simp] theorem setFieldIdx_ide (i : BitVec 10) : (setFieldIdx i s).ide = s.ide := rfl
@[simp] theorem setFieldIdx_frameType (i : BitVec 10) : (setFieldIdx i s).frameType = s.frameType := rfl
@[simp] theorem setFieldIdx_brs (i : BitVec 10) : (setFieldIdx i s).brs = s.brs := rfl
@[simp] theorem setFieldIdx_esi (i : BitVec 10) : (setFieldIdx i s).esi = s.esi := rfl
@[simp] theorem setFieldIdx_dlc (i : BitVec 10) : (setFieldIdx i s).dlc = s.dlc := rfl
@[simp] theorem setFieldIdx_buf (i : BitVec 10) : (setFieldIdx i s).buf = s.buf := rfl
@[simp] theorem setFieldIdx_crcRx (i : BitVec 10) : (setFieldIdx i s).crcRx = s.crcRx := rfl
@[simp] theorem setFieldIdx_sbcBits (i : BitVec 10) : (setFieldIdx i s).sbcBits = s.sbcBits := rfl
@[simp] theorem setFieldIdx_ackSlot (i : BitVec 10) : (setFieldIdx i s).ackSlot = s.ackSlot := rfl
@[simp] theorem setFieldIdx_prevBit (i : BitVec 10) : (setFieldIdx i s).prevBit = s.prevBit := rfl
@[simp] theorem setFieldIdx_fieldStart (i : BitVec 10) : (setFieldIdx i s).fieldStart = s.fieldStart := rfl
@[simp] theorem setFieldIdx_errCount (i : BitVec 10) : (setFieldIdx i s).errCount = s.errCount := rfl
@[simp] theorem setFieldIdx_errCause (i : BitVec 10) : (setFieldIdx i s).errCause = s.errCause := rfl
@[simp] theorem setFieldIdx_errState (i : BitVec 10) : (setFieldIdx i s).errState = s.errState := rfl
@[simp] theorem setFieldIdx_period (i : BitVec 10) : (setFieldIdx i s).period = s.period := rfl
@[simp] theorem setFieldIdx_bitStart (i : BitVec 10) : (setFieldIdx i s).bitStart = s.bitStart := rfl
@[simp] theorem setFieldIdx_bitEnd (i : BitVec 10) : (setFieldIdx i s).bitEnd = s.bitEnd := rfl
@[simp] theorem setFieldIdx_byteCount (i : BitVec 10) : (setFieldIdx i s).byteCount = s.byteCount := rfl
@[simp] theorem setFieldIdx_bufRead (i : BitVec 10) (j : Nat) : (setFieldIdx i s).bufRead j = s.bufRead j := rfl

/-! ## stepCrc15 -/

@[simp] theorem stepCrc15_cfg (b : Bit) : (stepCrc15 b s).cfg = s.cfg := rfl
@[simp] theorem stepCrc15_input (b : Bit) : (stepCrc15 b s).input = s.input := rfl
@[simp] theorem stepCrc15_recOut (b : Bit) : (stepCrc15 b s).recOut = s.recOut := rfl
@[simp] theorem stepCrc15_markOut (b : Bit) : (stepCrc15 b s).markOut = s.markOut := rfl
@[simp] theorem stepCrc15_sampleIdx (b : Bit) : (stepCrc15 b s).sampleIdx = s.sampleIdx := rfl
@[simp] theorem stepCrc15_prevLevel (b : Bit) : (stepCrc15 b s).prevLevel = s.prevLevel := rfl
@[simp] theorem stepCrc15_nextCenter (b : Bit) : (stepCrc15 b s).nextCenter = s.nextCenter := rfl
@[simp] theorem stepCrc15_dataRate (b : Bit) : (stepCrc15 b s).dataRate = s.dataRate := rfl
@[simp] theorem stepCrc15_dsActive (b : Bit) : (stepCrc15 b s).dsActive = s.dsActive := rfl
@[simp] theorem stepCrc15_runLength (b : Bit) : (stepCrc15 b s).runLength = s.runLength := rfl
@[simp] theorem stepCrc15_lastBit (b : Bit) : (stepCrc15 b s).lastBit = s.lastBit := rfl
@[simp] theorem stepCrc15_stuffCount (b : Bit) : (stepCrc15 b s).stuffCount = s.stuffCount := rfl
@[simp] theorem stepCrc15_crc15 (b : Bit) : (stepCrc15 b s).crc15 = crcStep poly15 s.crc15 b := rfl
@[simp] theorem stepCrc15_crc17 (b : Bit) : (stepCrc15 b s).crc17 = s.crc17 := rfl
@[simp] theorem stepCrc15_crc21 (b : Bit) : (stepCrc15 b s).crc21 = s.crc21 := rfl
@[simp] theorem stepCrc15_state (b : Bit) : (stepCrc15 b s).state = s.state := rfl
@[simp] theorem stepCrc15_fieldIdx (b : Bit) : (stepCrc15 b s).fieldIdx = s.fieldIdx := rfl
@[simp] theorem stepCrc15_identifier (b : Bit) : (stepCrc15 b s).identifier = s.identifier := rfl
@[simp] theorem stepCrc15_rtr (b : Bit) : (stepCrc15 b s).rtr = s.rtr := rfl
@[simp] theorem stepCrc15_ide (b : Bit) : (stepCrc15 b s).ide = s.ide := rfl
@[simp] theorem stepCrc15_frameType (b : Bit) : (stepCrc15 b s).frameType = s.frameType := rfl
@[simp] theorem stepCrc15_brs (b : Bit) : (stepCrc15 b s).brs = s.brs := rfl
@[simp] theorem stepCrc15_esi (b : Bit) : (stepCrc15 b s).esi = s.esi := rfl
@[simp] theorem stepCrc15_dlc (b : Bit) : (stepCrc15 b s).dlc = s.dlc := rfl
@[simp] theorem stepCrc15_buf (b : Bit) : (stepCrc15 b s).buf = s.buf := rfl
@[simp] theorem stepCrc15_crcRx (b : Bit) : (stepCrc15 b s).crcRx = s.crcRx := rfl
@[simp] theorem stepCrc15_sbcBits (b : Bit) : (stepCrc15 b s).sbcBits = s.sbcBits := rfl
@[simp] theorem stepCrc15_ackSlot (b : Bit) : (stepCrc15 b s).ackSlot = s.ackSlot := rfl
@[simp] theorem stepCrc15_prevBit (b : Bit) : (stepCrc15 b s).prevBit = s.prevBit := rfl
@[simp] theorem stepCrc15_fieldStart (b : Bit) : (stepCrc15 b s).fieldStart = s.fieldStart := rfl
@[simp] theorem stepCrc15_errCount (b : Bit) : (stepCrc15 b s).errCount = s.errCount := rfl
@[simp] theorem stepCrc15_errCause (b : Bit) : (stepCrc15 b s).errCause = s.errCause := rfl
@[simp] theorem stepCrc15_errState (b : Bit) : (stepCrc15 b s).errState = s.errState := rfl
@[simp] theorem stepCrc15_period (b : Bit) : (stepCrc15 b s).period = s.period := rfl
@[simp] theorem stepCrc15_bitStart (b : Bit) : (stepCrc15 b s).bitStart = s.bitStart := rfl
@[simp] theorem stepCrc15_bitEnd (b : Bit) : (stepCrc15 b s).bitEnd = s.bitEnd := rfl
@[simp] theorem stepCrc15_byteCount (b : Bit) : (stepCrc15 b s).byteCount = s.byteCount := rfl
@[simp] theorem stepCrc15_bufRead (b : Bit) (j : Nat) : (stepCrc15 b s).bufRead j = s.bufRead j := rfl

/-! ## stepCrc17 -/

@[simp] theorem stepCrc17_cfg (b : Bit) : (stepCrc17 b s).cfg = s.cfg := rfl
@[simp] theorem stepCrc17_input (b : Bit) : (stepCrc17 b s).input = s.input := rfl
@[simp] theorem stepCrc17_recOut (b : Bit) : (stepCrc17 b s).recOut = s.recOut := rfl
@[simp] theorem stepCrc17_markOut (b : Bit) : (stepCrc17 b s).markOut = s.markOut := rfl
@[simp] theorem stepCrc17_sampleIdx (b : Bit) : (stepCrc17 b s).sampleIdx = s.sampleIdx := rfl
@[simp] theorem stepCrc17_prevLevel (b : Bit) : (stepCrc17 b s).prevLevel = s.prevLevel := rfl
@[simp] theorem stepCrc17_nextCenter (b : Bit) : (stepCrc17 b s).nextCenter = s.nextCenter := rfl
@[simp] theorem stepCrc17_dataRate (b : Bit) : (stepCrc17 b s).dataRate = s.dataRate := rfl
@[simp] theorem stepCrc17_dsActive (b : Bit) : (stepCrc17 b s).dsActive = s.dsActive := rfl
@[simp] theorem stepCrc17_runLength (b : Bit) : (stepCrc17 b s).runLength = s.runLength := rfl
@[simp] theorem stepCrc17_lastBit (b : Bit) : (stepCrc17 b s).lastBit = s.lastBit := rfl
@[simp] theorem stepCrc17_stuffCount (b : Bit) : (stepCrc17 b s).stuffCount = s.stuffCount := rfl
@[simp] theorem stepCrc17_crc15 (b : Bit) : (stepCrc17 b s).crc15 = s.crc15 := rfl
@[simp] theorem stepCrc17_crc17 (b : Bit) : (stepCrc17 b s).crc17 = crcStep poly17 s.crc17 b := rfl
@[simp] theorem stepCrc17_crc21 (b : Bit) : (stepCrc17 b s).crc21 = s.crc21 := rfl
@[simp] theorem stepCrc17_state (b : Bit) : (stepCrc17 b s).state = s.state := rfl
@[simp] theorem stepCrc17_fieldIdx (b : Bit) : (stepCrc17 b s).fieldIdx = s.fieldIdx := rfl
@[simp] theorem stepCrc17_identifier (b : Bit) : (stepCrc17 b s).identifier = s.identifier := rfl
@[simp] theorem stepCrc17_rtr (b : Bit) : (stepCrc17 b s).rtr = s.rtr := rfl
@[simp] theorem stepCrc17_ide (b : Bit) : (stepCrc17 b s).ide = s.ide := rfl
@[simp] theorem stepCrc17_frameType (b : Bit) : (stepCrc17 b s).frameType = s.frameType := rfl
@[simp] theorem stepCrc17_brs (b : Bit) : (stepCrc17 b s).brs = s.brs := rfl
@[simp] theorem stepCrc17_esi (b : Bit) : (stepCrc17 b s).esi = s.esi := rfl
@[simp] theorem stepCrc17_dlc (b : Bit) : (stepCrc17 b s).dlc = s.dlc := rfl
@[simp] theorem stepCrc17_buf (b : Bit) : (stepCrc17 b s).buf = s.buf := rfl
@[simp] theorem stepCrc17_crcRx (b : Bit) : (stepCrc17 b s).crcRx = s.crcRx := rfl
@[simp] theorem stepCrc17_sbcBits (b : Bit) : (stepCrc17 b s).sbcBits = s.sbcBits := rfl
@[simp] theorem stepCrc17_ackSlot (b : Bit) : (stepCrc17 b s).ackSlot = s.ackSlot := rfl
@[simp] theorem stepCrc17_prevBit (b : Bit) : (stepCrc17 b s).prevBit = s.prevBit := rfl
@[simp] theorem stepCrc17_fieldStart (b : Bit) : (stepCrc17 b s).fieldStart = s.fieldStart := rfl
@[simp] theorem stepCrc17_errCount (b : Bit) : (stepCrc17 b s).errCount = s.errCount := rfl
@[simp] theorem stepCrc17_errCause (b : Bit) : (stepCrc17 b s).errCause = s.errCause := rfl
@[simp] theorem stepCrc17_errState (b : Bit) : (stepCrc17 b s).errState = s.errState := rfl
@[simp] theorem stepCrc17_period (b : Bit) : (stepCrc17 b s).period = s.period := rfl
@[simp] theorem stepCrc17_bitStart (b : Bit) : (stepCrc17 b s).bitStart = s.bitStart := rfl
@[simp] theorem stepCrc17_bitEnd (b : Bit) : (stepCrc17 b s).bitEnd = s.bitEnd := rfl
@[simp] theorem stepCrc17_byteCount (b : Bit) : (stepCrc17 b s).byteCount = s.byteCount := rfl
@[simp] theorem stepCrc17_bufRead (b : Bit) (j : Nat) : (stepCrc17 b s).bufRead j = s.bufRead j := rfl

/-! ## stepCrc21 -/

@[simp] theorem stepCrc21_cfg (b : Bit) : (stepCrc21 b s).cfg = s.cfg := rfl
@[simp] theorem stepCrc21_input (b : Bit) : (stepCrc21 b s).input = s.input := rfl
@[simp] theorem stepCrc21_recOut (b : Bit) : (stepCrc21 b s).recOut = s.recOut := rfl
@[simp] theorem stepCrc21_markOut (b : Bit) : (stepCrc21 b s).markOut = s.markOut := rfl
@[simp] theorem stepCrc21_sampleIdx (b : Bit) : (stepCrc21 b s).sampleIdx = s.sampleIdx := rfl
@[simp] theorem stepCrc21_prevLevel (b : Bit) : (stepCrc21 b s).prevLevel = s.prevLevel := rfl
@[simp] theorem stepCrc21_nextCenter (b : Bit) : (stepCrc21 b s).nextCenter = s.nextCenter := rfl
@[simp] theorem stepCrc21_dataRate (b : Bit) : (stepCrc21 b s).dataRate = s.dataRate := rfl
@[simp] theorem stepCrc21_dsActive (b : Bit) : (stepCrc21 b s).dsActive = s.dsActive := rfl
@[simp] theorem stepCrc21_runLength (b : Bit) : (stepCrc21 b s).runLength = s.runLength := rfl
@[simp] theorem stepCrc21_lastBit (b : Bit) : (stepCrc21 b s).lastBit = s.lastBit := rfl
@[simp] theorem stepCrc21_stuffCount (b : Bit) : (stepCrc21 b s).stuffCount = s.stuffCount := rfl
@[simp] theorem stepCrc21_crc15 (b : Bit) : (stepCrc21 b s).crc15 = s.crc15 := rfl
@[simp] theorem stepCrc21_crc17 (b : Bit) : (stepCrc21 b s).crc17 = s.crc17 := rfl
@[simp] theorem stepCrc21_crc21 (b : Bit) : (stepCrc21 b s).crc21 = crcStep poly21 s.crc21 b := rfl
@[simp] theorem stepCrc21_state (b : Bit) : (stepCrc21 b s).state = s.state := rfl
@[simp] theorem stepCrc21_fieldIdx (b : Bit) : (stepCrc21 b s).fieldIdx = s.fieldIdx := rfl
@[simp] theorem stepCrc21_identifier (b : Bit) : (stepCrc21 b s).identifier = s.identifier := rfl
@[simp] theorem stepCrc21_rtr (b : Bit) : (stepCrc21 b s).rtr = s.rtr := rfl
@[simp] theorem stepCrc21_ide (b : Bit) : (stepCrc21 b s).ide = s.ide := rfl
@[simp] theorem stepCrc21_frameType (b : Bit) : (stepCrc21 b s).frameType = s.frameType := rfl
@[simp] theorem stepCrc21_brs (b : Bit) : (stepCrc21 b s).brs = s.brs := rfl
@[simp] theorem stepCrc21_esi (b : Bit) : (stepCrc21 b s).esi = s.esi := rfl
@[simp] theorem stepCrc21_dlc (b : Bit) : (stepCrc21 b s).dlc = s.dlc := rfl
@[simp] theorem stepCrc21_buf (b : Bit) : (stepCrc21 b s).buf = s.buf := rfl
@[simp] theorem stepCrc21_crcRx (b : Bit) : (stepCrc21 b s).crcRx = s.crcRx := rfl
@[simp] theorem stepCrc21_sbcBits (b : Bit) : (stepCrc21 b s).sbcBits = s.sbcBits := rfl
@[simp] theorem stepCrc21_ackSlot (b : Bit) : (stepCrc21 b s).ackSlot = s.ackSlot := rfl
@[simp] theorem stepCrc21_prevBit (b : Bit) : (stepCrc21 b s).prevBit = s.prevBit := rfl
@[simp] theorem stepCrc21_fieldStart (b : Bit) : (stepCrc21 b s).fieldStart = s.fieldStart := rfl
@[simp] theorem stepCrc21_errCount (b : Bit) : (stepCrc21 b s).errCount = s.errCount := rfl
@[simp] theorem stepCrc21_errCause (b : Bit) : (stepCrc21 b s).errCause = s.errCause := rfl
@[simp] theorem stepCrc21_errState (b : Bit) : (stepCrc21 b s).errState = s.errState := rfl
@[simp] theorem stepCrc21_period (b : Bit) : (stepCrc21 b s).period = s.period := rfl
@[simp] theorem stepCrc21_bitStart (b : Bit) : (stepCrc21 b s).bitStart = s.bitStart := rfl
@[simp] theorem stepCrc21_bitEnd (b : Bit) : (stepCrc21 b s).bitEnd = s.bitEnd := rfl
@[simp] theorem stepCrc21_byteCount (b : Bit) : (stepCrc21 b s).byteCount = s.byteCount := rfl
@[simp] theorem stepCrc21_bufRead (b : Bit) (j : Nat) : (stepCrc21 b s).bufRead j = s.bufRead j := rfl

/-! ## resync -/

@[simp] theorem resync_cfg : (resync s).cfg = s.cfg := rfl
@[simp] theorem resync_input : (resync s).input = s.input := rfl
@[simp] theorem resync_recOut : (resync s).recOut = s.recOut := rfl
@[simp] theorem resync_markOut : (resync s).markOut = s.markOut := rfl
@[simp] theorem resync_sampleIdx : (resync s).sampleIdx = s.sampleIdx := rfl
@[simp] theorem resync_prevLevel : (resync s).prevLevel = s.prevLevel := rfl
@[simp] theorem resync_nextCenter : (resync s).nextCenter = (s.sampleIdx : Int) + half s.period := rfl
@[simp] theorem resync_dataRate : (resync s).dataRate = s.dataRate := rfl
@[simp] theorem resync_dsActive : (resync s).dsActive = s.dsActive := rfl
@[simp] theorem resync_runLength : (resync s).runLength = s.runLength := rfl
@[simp] theorem resync_lastBit : (resync s).lastBit = s.lastBit := rfl
@[simp] theorem resync_stuffCount : (resync s).stuffCount = s.stuffCount := rfl
@[simp] theorem resync_crc15 : (resync s).crc15 = s.crc15 := rfl
@[simp] theorem resync_crc17 : (resync s).crc17 = s.crc17 := rfl
@[simp] theorem resync_crc21 : (resync s).crc21 = s.crc21 := rfl
@[simp] theorem resync_state : (resync s).state = s.state := rfl
@[simp] theorem resync_fieldIdx : (resync s).fieldIdx = s.fieldIdx := rfl
@[simp] theorem resync_identifier : (resync s).identifier = s.identifier := rfl
@[simp] theorem resync_rtr : (resync s).rtr = s.rtr := rfl
@[simp] theorem resync_ide : (resync s).ide = s.ide := rfl
@[simp] theorem resync_frameType : (resync s).frameType = s.frameType := rfl
@[simp] theorem resync_brs : (resync s).brs = s.brs := rfl
@[simp] theorem resync_esi : (resync s).esi = s.esi := rfl
@[simp] theorem resync_dlc : (resync s).dlc = s.dlc := rfl
@[simp] theorem resync_buf : (resync s).buf = s.buf := rfl
@[simp] theorem resync_crcRx : (resync s).crcRx = s.crcRx := rfl
@[simp] theorem resync_sbcBits : (resync s).sbcBits = s.sbcBits := rfl
@[simp] theorem resync_ackSlot : (resync s).ackSlot = s.ackSlot := rfl
@[simp] theorem resync_prevBit : (resync s).prevBit = s.prevBit := rfl
@[simp] theorem resync_fieldStart : (resync s).fieldStart = s.fieldStart := rfl
@[simp] theorem resync_errCount : (resync s).errCount = s.errCount := rfl
@[simp] theorem resync_errCause : (resync s).errCause = s.errCause := rfl
@[simp] theorem resync_errState : (resync s).errState = s.errState := rfl
@[simp] theorem resync_period : (resync s).period = s.period := rfl
@[simp] theorem resync_bitStart : (resync s).bitStart = s.bitStart := rfl
@[simp] theorem resync_bitEnd : (resync s).bitEnd = s.bitEnd := rfl
@[simp] theorem resync_byteCount : (resync s).byteCount = s.byteCount := rfl
@[simp] theorem resync_bufRead (j : Nat) : (resync s).bufRead j = s.bufRead j := rfl

/-! ## startRun -/

@[simp] theorem startRun_cfg (b : Bit) : (startRun b s).cfg = s.cfg := rfl
@[simp] theorem startRun_input (b : Bit) : (startRun b s).input = s.input := rfl
@[simp] theorem startRun_recOut (b : Bit) : (startRun b s).recOut = s.recOut := rfl
@[simp] theorem startRun_markOut (b : Bit) : (startRun b s).markOut = s.markOut := rfl
@[simp] theorem startRun_sampleIdx (b : Bit) : (startRun b s).sampleIdx = s.sampleIdx := rfl
@[simp] theorem startRun_prevLevel (b : Bit) : (startRun b s).prevLevel = s.prevLevel := rfl
@[simp] theorem startRun_nextCenter (b : Bit) : (startRun b s).nextCenter = s.nextCenter := rfl
@[simp] theorem startRun_dataRate (b : Bit) : (startRun b s).dataRate = s.dataRate := rfl
@[simp] theorem startRun_dsActive (b : Bit) : (startRun b s).dsActive = s.dsActive := rfl
@[simp] theorem startRun_runLength (b : Bit) : (startRun b s).runLength = 1 := rfl
@[simp] theorem startRun_lastBit (b : Bit) : (startRun b s).lastBit = b := rfl
@[simp] theorem startRun_stuffCount (b : Bit) : (startRun b s).stuffCount = s.stuffCount := rfl
@[simp] theorem startRun_crc15 (b : Bit) : (startRun b s).crc15 = s.crc15 := rfl
@[simp] theorem startRun_crc17 (b : Bit) : (startRun b s).crc17 = s.crc17 := rfl
@[simp] theorem startRun_crc21 (b : Bit) : (startRun b s).crc21 = s.crc21 := rfl
@[simp] theorem startRun_state (b : Bit) : (startRun b s).state = s.state := rfl
@[simp] theorem startRun_fieldIdx (b : Bit) : (startRun b s).fieldIdx = s.fieldIdx := rfl
@[simp] theorem startRun_identifier (b : Bit) : (startRun b s).identifier = s.identifier := rfl
@[simp] theorem startRun_rtr (b : Bit) : (startRun b s).rtr = s.rtr := rfl
@[simp] theorem startRun_ide (b : Bit) : (startRun b s).ide = s.ide := rfl
@[simp] theorem startRun_frameType (b : Bit) : (startRun b s).frameType = s.frameType := rfl
@[simp] theorem startRun_brs (b : Bit) : (startRun b s).brs = s.brs := rfl
@[simp] theorem startRun_esi (b : Bit) : (startRun b s).esi = s.esi := rfl
@[simp] theorem startRun_dlc (b : Bit) : (startRun b s).dlc = s.dlc := rfl
@[simp] theorem startRun_buf (b : Bit) : (startRun b s).buf = s.buf := rfl
@[simp] theorem startRun_crcRx (b : Bit) : (startRun b s).crcRx = s.crcRx := rfl
@[simp] theorem startRun_sbcBits (b : Bit) : (startRun b s).sbcBits = s.sbcBits := rfl
@[simp] theorem startRun_ackSlot (b : Bit) : (startRun b s).ackSlot = s.ackSlot := rfl
@[simp] theorem startRun_prevBit (b : Bit) : (startRun b s).prevBit = s.prevBit := rfl
@[simp] theorem startRun_fieldStart (b : Bit) : (startRun b s).fieldStart = s.fieldStart := rfl
@[simp] theorem startRun_errCount (b : Bit) : (startRun b s).errCount = s.errCount := rfl
@[simp] theorem startRun_errCause (b : Bit) : (startRun b s).errCause = s.errCause := rfl
@[simp] theorem startRun_errState (b : Bit) : (startRun b s).errState = s.errState := rfl
@[simp] theorem startRun_period (b : Bit) : (startRun b s).period = s.period := rfl
@[simp] theorem startRun_bitStart (b : Bit) : (startRun b s).bitStart = s.bitStart := rfl
@[simp] theorem startRun_bitEnd (b : Bit) : (startRun b s).bitEnd = s.bitEnd := rfl
@[simp] theorem startRun_byteCount (b : Bit) : (startRun b s).byteCount = s.byteCount := rfl
@[simp] theorem startRun_bufRead (b : Bit) (j : Nat) : (startRun b s).bufRead j = s.bufRead j := rfl

/-! ## rateSwitch -/

@[simp] theorem rateSwitch_cfg (up : Bit) : (rateSwitch up s).cfg = s.cfg := rfl
@[simp] theorem rateSwitch_input (up : Bit) : (rateSwitch up s).input = s.input := rfl
@[simp] theorem rateSwitch_recOut (up : Bit) : (rateSwitch up s).recOut = s.recOut := rfl
@[simp] theorem rateSwitch_markOut (up : Bit) : (rateSwitch up s).markOut = s.markOut := rfl
@[simp] theorem rateSwitch_sampleIdx (up : Bit) : (rateSwitch up s).sampleIdx = s.sampleIdx := rfl
@[simp] theorem rateSwitch_prevLevel (up : Bit) : (rateSwitch up s).prevLevel = s.prevLevel := rfl
@[simp] theorem rateSwitch_dataRate (up : Bit) : (rateSwitch up s).dataRate = up := rfl
@[simp] theorem rateSwitch_dsActive (up : Bit) : (rateSwitch up s).dsActive = s.dsActive := rfl
@[simp] theorem rateSwitch_runLength (up : Bit) : (rateSwitch up s).runLength = s.runLength := rfl
@[simp] theorem rateSwitch_lastBit (up : Bit) : (rateSwitch up s).lastBit = s.lastBit := rfl
@[simp] theorem rateSwitch_stuffCount (up : Bit) : (rateSwitch up s).stuffCount = s.stuffCount := rfl
@[simp] theorem rateSwitch_crc15 (up : Bit) : (rateSwitch up s).crc15 = s.crc15 := rfl
@[simp] theorem rateSwitch_crc17 (up : Bit) : (rateSwitch up s).crc17 = s.crc17 := rfl
@[simp] theorem rateSwitch_crc21 (up : Bit) : (rateSwitch up s).crc21 = s.crc21 := rfl
@[simp] theorem rateSwitch_state (up : Bit) : (rateSwitch up s).state = s.state := rfl
@[simp] theorem rateSwitch_fieldIdx (up : Bit) : (rateSwitch up s).fieldIdx = s.fieldIdx := rfl
@[simp] theorem rateSwitch_identifier (up : Bit) : (rateSwitch up s).identifier = s.identifier := rfl
@[simp] theorem rateSwitch_rtr (up : Bit) : (rateSwitch up s).rtr = s.rtr := rfl
@[simp] theorem rateSwitch_ide (up : Bit) : (rateSwitch up s).ide = s.ide := rfl
@[simp] theorem rateSwitch_frameType (up : Bit) : (rateSwitch up s).frameType = s.frameType := rfl
@[simp] theorem rateSwitch_brs (up : Bit) : (rateSwitch up s).brs = s.brs := rfl
@[simp] theorem rateSwitch_esi (up : Bit) : (rateSwitch up s).esi = s.esi := rfl
@[simp] theorem rateSwitch_dlc (up : Bit) : (rateSwitch up s).dlc = s.dlc := rfl
@[simp] theorem rateSwitch_buf (up : Bit) : (rateSwitch up s).buf = s.buf := rfl
@[simp] theorem rateSwitch_crcRx (up : Bit) : (rateSwitch up s).crcRx = s.crcRx := rfl
@[simp] theorem rateSwitch_sbcBits (up : Bit) : (rateSwitch up s).sbcBits = s.sbcBits := rfl
@[simp] theorem rateSwitch_ackSlot (up : Bit) : (rateSwitch up s).ackSlot = s.ackSlot := rfl
@[simp] theorem rateSwitch_prevBit (up : Bit) : (rateSwitch up s).prevBit = s.prevBit := rfl
@[simp] theorem rateSwitch_fieldStart (up : Bit) : (rateSwitch up s).fieldStart = s.fieldStart := rfl
@[simp] theorem rateSwitch_errCount (up : Bit) : (rateSwitch up s).errCount = s.errCount := rfl
@[simp] theorem rateSwitch_errCause (up : Bit) : (rateSwitch up s).errCause = s.errCause := rfl
@[simp] theorem rateSwitch_errState (up : Bit) : (rateSwitch up s).errState = s.errState := rfl
@[simp] theorem rateSwitch_byteCount (up : Bit) : (rateSwitch up s).byteCount = s.byteCount := rfl
@[simp] theorem rateSwitch_bufRead (up : Bit) (j : Nat) : (rateSwitch up s).bufRead j = s.bufRead j := rfl

/-! ## raiseError -/

@[simp] theorem raiseError_cfg (c : ErrCause) : (raiseError c s).cfg = s.cfg := rfl
@[simp] theorem raiseError_input (c : ErrCause) : (raiseError c s).input = s.input := rfl
@[simp] theorem raiseError_recOut (c : ErrCause) : (raiseError c s).recOut = s.recOut := rfl
@[simp] theorem raiseError_markOut (c : ErrCause) : (raiseError c s).markOut = s.markOut := rfl
@[simp] theorem raiseError_sampleIdx (c : ErrCause) : (raiseError c s).sampleIdx = s.sampleIdx := rfl
@[simp] theorem raiseError_prevLevel (c : ErrCause) : (raiseError c s).prevLevel = s.prevLevel := rfl
@[simp] theorem raiseError_nextCenter (c : ErrCause) : (raiseError c s).nextCenter = s.nextCenter := rfl
@[simp] theorem raiseError_dataRate (c : ErrCause) : (raiseError c s).dataRate = false := rfl
@[simp] theorem raiseError_dsActive (c : ErrCause) : (raiseError c s).dsActive = false := rfl
@[simp] theorem raiseError_runLength (c : ErrCause) : (raiseError c s).runLength = s.runLength := rfl
@[simp] theorem raiseError_lastBit (c : ErrCause) : (raiseError c s).lastBit = s.lastBit := rfl
@[simp] theorem raiseError_stuffCount (c : ErrCause) : (raiseError c s).stuffCount = s.stuffCount := rfl
@[simp] theorem raiseError_crc15 (c : ErrCause) : (raiseError c s).crc15 = s.crc15 := rfl
@[simp] theorem raiseError_crc17 (c : ErrCause) : (raiseError c s).crc17 = s.crc17 := rfl
@[simp] theorem raiseError_crc21 (c : ErrCause) : (raiseError c s).crc21 = s.crc21 := rfl
@[simp] theorem raiseError_state (c : ErrCause) : (raiseError c s).state = .decoderError := rfl
@[simp] theorem raiseError_fieldIdx (c : ErrCause) : (raiseError c s).fieldIdx = 0 := rfl
@[simp] theorem raiseError_identifier (c : ErrCause) : (raiseError c s).identifier = s.identifier := rfl
@[simp] theorem raiseError_rtr (c : ErrCause) : (raiseError c s).rtr = s.rtr := rfl
@[simp] theorem raiseError_ide (c : ErrCause) : (raiseError c s).ide = s.ide := rfl
@[simp] theorem raiseError_frameType (c : ErrCause) : (raiseError c s).frameType = s.frameType := rfl
@[simp] theorem raiseError_brs (c : ErrCause) : (raiseError c s).brs = s.brs := rfl
@[simp] theorem raiseError_esi (c : ErrCause) : (raiseError c s).esi = s.esi := rfl
@[simp] theorem raiseError_dlc (c : ErrCause) : (raiseError c s).dlc = s.dlc := rfl
@[simp] theorem raiseError_buf (c : ErrCause) : (raiseError c s).buf = s.buf := rfl
@[simp] theorem raiseError_crcRx (c : ErrCause) : (raiseError c s).crcRx = s.crcRx := rfl
@[simp] theorem raiseError_sbcBits (c : ErrCause) : (raiseError c s).sbcBits = s.sbcBits := rfl
@[simp] theorem raiseError_ackSlot (c : ErrCause) : (raiseError c s).ackSlot = s.ackSlot := rfl
@[simp] theorem raiseError_prevBit (c : ErrCause) : (raiseError c s).prevBit = s.prevBit := rfl
@[simp] theorem raiseError_fieldStart (c : ErrCause) : (raiseError c s).fieldStart = s.fieldStart := rfl
@[simp] theorem raiseError_errCount (c : ErrCause) : (raiseError c s).errCount = 0 := rfl
@[simp] theorem raiseError_errCause (c : ErrCause) : (raiseError c s).errCause = c := rfl
@[simp] theorem raiseError_errState (c : ErrCause) : (raiseError c s).errState = s.state := rfl
@[simp] theorem raiseError_byteCount (c : ErrCause) : (raiseError c s).byteCount = s.byteCount := rfl
@[simp] theorem raiseError_bufRead (c : ErrCause) (j : Nat) : (raiseError c s).bufRead j = s.bufRead j := rfl

/-! ## The next centre after a switch, and the derived updates -/

@[simp] theorem rateSwitch_nextCenter (up : Bit) :
    (rateSwitch up s).nextCenter = (s.sampleIdx : Int) - half (s.cfg.period !up) + s.cfg.transition up
      - half (s.cfg.period up) + s.cfg.period up := rfl

theorem markBit_eq (b : Bit) : markBit b s = putMark (if b then .one else .zero) s := rfl

theorem returnFromError_eq :
    returnFromError s =
      { emit .error (s.errCause.code.setWidth 32) (s.errState.code.setWidth 32) s.bitEnd s with
        state := .idle, errCount := 0, fieldIdx := 0 } := rfl

end Sys2Proof.Machine
end

