-- ==== Sys2Proof/Laws/Decode.lean ====
section
/-! SUPPORT. What the selector words of Machine/Operands.lean select: the rows' match and mask evaluated
once, so that no later proof looks at a word again. -/

namespace Sys2Proof.Machine

/-! ## The engine's selection -/

/-- The ENG word as a function of the fields it packs. -/
def engWordOf (st : EngState) (ft : FrameType) (dr b : Bit) : BitVec 8 :=
  BitVec.ofNat 8 (16 * st.code.toNat + 4 * ft.code.toNat + 2 * dr.toNat + b.toNat)

theorem engWord_eq (s : State) (b : Bit) :
    engWord s b = engWordOf s.state s.frameType s.dataRate b := rfl

/-- The engine operation by nested cases on the state and `fieldIdx`. -/
def selectEng (st : EngState) (ft : FrameType) (b : Bit) (i : Nat) (dlc : BitVec 4) : Option EngOp :=
  match st with
  | .idle => some (if b then .idleRecessive else .idleSof)
  | .identifier =>
    if i < 11 then some .idBit else if i = 11 then some .idRtrSrr else if i = 12 then some .idIde
    else if i < 31 then some .idExtBit else if i = 31 then some .idExtRtr else none
  | .controlBase => if i = 0 then some .cbFdf else if i = 1 then some .cbRes else none
  | .controlExtended => if i = 0 then some .ceFdf else if i = 1 then some .ceR0 else none
  | .controlAfterR0 =>
    if ft = .fdData then
      if i = 0 then some .caBrs else if i = 1 then some .caEsi
      else if i < 6 then some .caDlcFd else none
    else if i < 4 then some .caDlcClassic else none
  | .data => if i < 8 * byteCount ft dlc then some .dataBit else none
  | .sbc => if i = 0 then some .sbcFsb else if i < 4 then some .sbcBit
    else if i = 4 then some .sbcLast else none
  | .crc15 => if i < 14 then some .crc15Bit else if i = 14 then some .crc15Last else none
  | .crc17 => if i % 5 = 0 then some .crc17Fsb else if i < 21 then some .crc17Bit
    else if i = 21 then some .crc17Last else none
  | .crc21 => if i % 5 = 0 then some .crc21Fsb else if i < 26 then some .crc21Bit
    else if i = 26 then some .crc21Last else none
  | .crcdel => some .crcdelBit
  | .ack => if i = 0 then some .ackSlot else if i = 1 then some .ackDel else none
  | .endOfFrame => if i < 7 then some .eofBit else none
  | .intermission => if i < 3 then some .ifsBit else none
  | .decoderError => some .errBit

theorem FrameType.ofCode?_engWordOf (st : EngState) (ft : FrameType) (dr b : Bit) :
    FrameType.ofCode? ((engWordOf st ft dr b).extractLsb' 2 2) = some ft := by
  cases st <;> cases ft <;> cases dr <;> cases b <;> rfl

/-- Bit 0 of an ENG word is the current bit. -/
theorem engWordOf_bit (st : EngState) (ft : FrameType) (dr b : Bit) :
    (engWordOf st ft dr b).getLsbD 0 = b := by
  cases st <;> cases ft <;> cases dr <;> cases b <;> rfl

/-- The rows whose match and mask fit an ENG word, the condition column apart. -/
def rowsOf (st : EngState) (ft : FrameType) (b : Bit) : List EngOp :=
  match st with
  | .idle => [if b then .idleRecessive else .idleSof]
  | .identifier => [.idBit, .idRtrSrr, .idIde, .idExtBit, .idExtRtr]
  | .controlBase => [.cbFdf, .cbRes]
  | .controlExtended => [.ceFdf, .ceR0]
  | .controlAfterR0 => if ft = .fdData then [.caBrs, .caEsi, .caDlcFd] else [.caDlcClassic]
  | .data => [.dataBit]
  | .sbc => [.sbcFsb, .sbcBit, .sbcLast]
  | .crc15 => [.crc15Bit, .crc15Last]
  | .crc17 => [.crc17Fsb, .crc17Bit, .crc17Last]
  | .crc21 => [.crc21Fsb, .crc21Bit, .crc21Last]
  | .crcdel => [.crcdelBit]
  | .ack => [.ackSlot, .ackDel]
  | .endOfFrame => [.eofBit]
  | .intermission => [.ifsBit]
  | .decoderError => [.errBit]

theorem rows_engWordOf (st : EngState) (ft : FrameType) (dr b : Bit) :
    engOps.filter (fun op => wordMatches (engWordOf st ft dr b) (engRow op).pat (engRow op).mask) =
      rowsOf st ft b := by
  cases st <;> cases ft <;> cases dr <;> cases b <;> rfl

/-- A condition as a proposition on `fieldIdx`, the frame type and the DLC. -/
theorem holds_engWordOf (c : SlotCond) (st : EngState) (ft : FrameType) (dr b : Bit)
    (idx : BitVec 10) (dlc : BitVec 4) :
    c.holds (engWordOf st ft dr b) idx dlc =
      match c with
      | .always => true
      | .slots lo hi => decide (lo ≤ idx.toNat + 1 ∧ idx.toNat + 1 ≤ hi)
      | .fixedStuff => decide (idx.toNat % 5 = 0)
      | .carrying n => decide (idx.toNat % 5 ≠ 0 ∧ idx.toNat + 1 < n)
      | .withinData => decide (idx.toNat + 1 ≤ 8 * byteCount ft dlc) := by
  cases c <;> simp [SlotCond.holds, FrameType.ofCode?_engWordOf, Bool.decide_and, bne, decide_not] <;> rfl

/-- The row tables select what `selectEng` says. -/
theorem decodeEng_engWordOf (st : EngState) (ft : FrameType) (dr b : Bit) (idx : BitVec 10)
    (dlc : BitVec 4) :
    decodeEng (engWordOf st ft dr b) idx dlc = selectEng st ft b idx.toNat dlc := by
  have h : decodeEng (engWordOf st ft dr b) idx dlc =
      (rowsOf st ft b).find? fun op => (engRow op).cond.holds (engWordOf st ft dr b) idx dlc := by
    rw [← rows_engWordOf st ft dr b, List.find?_filter]
    simp only [decodeEng, engApplies, Bool.decide_and, Bool.decide_eq_true]
  simp only [h, holds_engWordOf]
  cases st <;> simp only [rowsOf, selectEng] <;> (try split) <;>
    simp [List.find?, engRow] <;> (repeat' split) <;> simp_all <;> omega

theorem decodeEng_state (s : State) (b : Bit) :
    decodeEng (engWord s b) s.fieldIdx s.dlc =
      selectEng s.state s.frameType b s.fieldIdx.toNat s.dlc :=
  decodeEng_engWordOf ..

/-! ## No two engine rows overlap -/

/-- Two conditions that no `fieldIdx` meets together. -/
def condsDisjoint : SlotCond → SlotCond → Bool
  | .slots _ b, .slots c d => decide (b < c) || d == 0
  | .fixedStuff, .carrying _ => true
  | .fixedStuff, .slots c d => decide (c = d ∧ c % 5 ≠ 1)
  | .carrying n, .slots c _ => decide (n ≤ c)
  | _, _ => false

/-- Two rows that no word, `fieldIdx` and `dlc` meet together. -/
def rowsDisjoint (r r' : EngRow) : Bool :=
  ((r.pat ^^^ r'.pat) &&& r.mask &&& r'.mask) != 0 || condsDisjoint r.cond r'.cond

theorem engRows_disjoint :
    List.Pairwise (fun op op' => rowsDisjoint (engRow op) (engRow op') = true) engOps := by decide

theorem condsDisjoint_sound {c c' : SlotCond} (h : condsDisjoint c c' = true) (w : BitVec 8)
    (idx : BitVec 10) (dlc : BitVec 4) (h1 : c.holds w idx dlc = true) :
    c'.holds w idx dlc = false := by
  cases c <;> cases c' <;> simp [condsDisjoint] at h <;> simp [SlotCond.holds] at h1 ⊢ <;> omega

theorem masks_disjoint {w p m p' m' : BitVec 8} (h : (p ^^^ p') &&& m &&& m' ≠ 0) (h1 : w &&& m = p) :
    w &&& m' ≠ p' := by
  rintro rfl
  subst h1
  apply h
  ext i
  simp
  cases w[i] <;> cases m[i] <;> cases m'[i] <;> decide

theorem rowsDisjoint_sound {op op' : EngOp} (h : rowsDisjoint (engRow op) (engRow op') = true)
    {w : BitVec 8} {idx : BitVec 10} {dlc : BitVec 4} (h1 : engApplies op w idx dlc = true) :
    engApplies op' w idx dlc = false := by
  simp only [engApplies, wordMatches, Bool.and_eq_true, beq_iff_eq] at h1
  simp only [rowsDisjoint, Bool.or_eq_true, bne_iff_ne] at h
  rcases h with h | h
  · simp [engApplies, wordMatches, masks_disjoint h h1.1]
  · simp [engApplies, condsDisjoint_sound h _ _ _ h1.2]

theorem mem_engOps (op : EngOp) : op ∈ engOps := by cases op <;> decide

theorem find?_eq_of_pairwise {α : Type} {r : α → α → Prop} {p : α → Bool}
    (hr : ∀ a b, r a b → p a = true → p b = false) :
    ∀ {l : List α}, l.Pairwise r → ∀ {a}, a ∈ l → p a = true → l.find? p = some a
  | [], _, _, h, _ => by cases h
  | x :: l, hl, a, h, ha => by
    rw [List.pairwise_cons] at hl
    rcases List.mem_cons.1 h with rfl | h
    · simp [ha]
    · have : p x = false := by
        cases hx : p x
        · rfl
        · rw [hr _ _ (hl.1 a h) hx] at ha; cases ha
      rw [List.find?_cons_of_neg (by simp [this])]
      exact find?_eq_of_pairwise hr hl.2 h ha

/-- A row that applies is the one decoded: no two engine rows overlap. -/
theorem decodeEng_eq_some_iff {op : EngOp} {w : BitVec 8} {idx : BitVec 10} {dlc : BitVec 4} :
    decodeEng w idx dlc = some op ↔ engApplies op w idx dlc = true :=
  ⟨fun h => List.find?_some (p := (engApplies · w idx dlc)) h, fun h =>
    find?_eq_of_pairwise (p := (engApplies · w idx dlc)) (fun _ _ hd h1 => rowsDisjoint_sound hd h1)
      engRows_disjoint (mem_engOps op) h⟩

/-! ## The destuffer's selection -/

/-- The DS word as a function of the bits it packs, and the row it selects. -/
theorem decodeDs_bits (active forced run5 eq : Bit) :
    decodeDs (BitVec.ofNat 4 (8 * active.toNat + 4 * forced.toNat + 2 * run5.toNat + eq.toNat)) =
      some (if active = false then .direct else if forced then .forced
        else if run5 then (if eq then .stuffError else .stuff)
        else if eq then .passSame else .passToggle) := by
  cases active <;> cases forced <;> cases run5 <;> cases eq <;> rfl

theorem decodeDs_state (s : State) (b : Bit) :
    decodeDs (dsWord s b) =
      some (if s.dsActive = false then .direct else if forcedSlot s then .forced
        else if runOfFive s then (if b == s.lastBit then .stuffError else .stuff)
        else if b == s.lastBit then .passSame else .passToggle) :=
  decodeDs_bits ..

/-! ## The host-level selection -/

theorem decode_hostWord (rst edge due raw : Bit) :
    decode (.host (hostWord rst edge due) raw) = .ok (if rst then .reset else .tick raw) := by
  cases rst <;> cases edge <;> cases due <;> rfl

theorem decode_edge_hostWord (rst edge due : Bit) :
    decode (.edge (hostWord rst edge due)) =
      if edge && !rst then .ok .clkResync else .error .noEdge := by
  cases rst <;> cases edge <;> cases due <;> rfl

theorem decode_due_hostWord (rst edge due v : Bit) :
    decode (.due (hostWord rst edge due) v) =
      if due && !rst then .ok (.clkSample v) else .error .noBitDue := by
  cases rst <;> cases edge <;> cases due <;> rfl

end Sys2Proof.Machine
end

