-- ==== Sys2Proof/Laws/Ops.lean ====
section
/-! SUPPORT. The shared operations in arithmetic terms: a bit shifted into a register, two flags as a
payload, and the sequencing of outcomes. -/

namespace Sys2Proof.Machine

theorem bitAs_toNat {w : Nat} (hw : 0 < w) (b : Bit) : (bitAs w b).toNat = b.toNat := by
  have : b.toNat < 2 ^ w :=
    lt_of_lt_of_le (by cases b <;> decide) (Nat.pow_le_pow_right (by decide) hw : 2 ^ 1 ≤ 2 ^ w)
  simp [bitAs, Nat.mod_eq_of_lt this]

/-- A bit shifted in under a mask of `n` ones: double, add the bit, keep `n` bits. -/
theorem shiftIn_toNat {w : Nat} (n : Nat) (hn : n ≤ w) (hw : 0 < w) (r : BitVec w) (b : Bit) :
    (shiftIn (BitVec.ofNat w (2 ^ n - 1)) r b).toNat = (2 * r.toNat + b.toNat) % 2 ^ n := by
  have hp : 2 ^ n ≤ 2 ^ w := Nat.pow_le_pow_right (by decide) hn
  have hm : (2 ^ n - 1) % 2 ^ w = 2 ^ n - 1 :=
    Nat.mod_eq_of_lt (by have := Nat.two_pow_pos n; omega)
  obtain ⟨k, rfl⟩ : ∃ k, w = k + 1 := ⟨w - 1, by omega⟩
  have hs : r.toNat <<< 1 % 2 ^ (k + 1) = (r.toNat % 2 ^ k) <<< 1 := by
    simp only [Nat.shiftLeft_eq, pow_succ, pow_zero, one_mul]
    rw [Nat.mul_mod_mul_right]
  have hb : b.toNat < 2 ^ 1 := by cases b <;> decide
  have hd : 2 ^ n ∣ 2 ^ (k + 1) := Nat.pow_dvd_pow 2 hn
  have h2 : r.toNat % 2 ^ k * 2 ^ 1 = (2 * r.toNat) % 2 ^ (k + 1) := by
    rw [pow_succ 2 k, pow_one, Nat.mul_comm 2 r.toNat, Nat.mul_mod_mul_right]
  simp only [shiftIn, BitVec.toNat_and, BitVec.toNat_or, BitVec.toNat_shiftLeft, bitAs_toNat hw,
    BitVec.toNat_ofNat, hm, hs]
  rw [Nat.and_two_pow_sub_one_eq_mod, ← Nat.shiftLeft_add_eq_or_of_lt hb, Nat.shiftLeft_eq, h2,
    Nat.add_mod, Nat.mod_mod_of_dvd _ hd, ← Nat.add_mod]

theorem shiftIn_eq {w : Nat} (n : Nat) (hn : n ≤ w) (hw : 0 < w) (r : BitVec w) (b : Bit) :
    shiftIn (BitVec.ofNat w (2 ^ n - 1)) r b = BitVec.ofNat w ((2 * r.toNat + b.toNat) % 2 ^ n) := by
  apply BitVec.eq_of_toNat_eq
  rw [shiftIn_toNat n hn hw, BitVec.toNat_ofNat, Nat.mod_eq_of_lt
    (lt_of_lt_of_le (Nat.mod_lt _ (Nat.two_pow_pos n)) (Nat.pow_le_pow_right (by decide) hn))]

/-- The identifier, 29 bits. -/
theorem shiftIn_identifier (r : BitVec 29) (b : Bit) :
    shiftIn 0x1FFFFFFF r b = BitVec.ofNat 29 ((2 * r.toNat + b.toNat) % 2 ^ 29) :=
  shiftIn_eq 29 (by decide) (by decide) r b

/-- The DLC and the SBC bits, 4 bits. -/
theorem shiftIn_nibble (r : BitVec 4) (b : Bit) :
    shiftIn 0xF r b = BitVec.ofNat 4 ((2 * r.toNat + b.toNat) % 16) :=
  shiftIn_eq 4 (by decide) (by decide) r b

/-- A data byte. -/
theorem shiftIn_byte (r : Byte) (b : Bit) :
    shiftIn 0xFF r b = BitVec.ofNat 8 ((2 * r.toNat + b.toNat) % 256) :=
  shiftIn_eq 8 (by decide) (by decide) r b

/-- The received CRC value under the masks of the three fields. -/
theorem shiftIn_rxMask15 (r : BitVec 21) (b : Bit) :
    shiftIn rxMask15 r b = BitVec.ofNat 21 ((2 * r.toNat + b.toNat) % 2 ^ 15) :=
  shiftIn_eq 15 (by decide) (by decide) r b

theorem shiftIn_rxMask17 (r : BitVec 21) (b : Bit) :
    shiftIn rxMask17 r b = BitVec.ofNat 21 ((2 * r.toNat + b.toNat) % 2 ^ 17) :=
  shiftIn_eq 17 (by decide) (by decide) r b

theorem shiftIn_rxMask21 (r : BitVec 21) (b : Bit) :
    shiftIn rxMask21 r b = BitVec.ofNat 21 ((2 * r.toNat + b.toNat) % 2 ^ 21) :=
  shiftIn_eq 21 (by decide) (by decide) r b

theorem setWidth_ofNat_of_lt {w n : Nat} (h : n < 2 ^ w) :
    (BitVec.ofNat w n).setWidth 32 = BitVec.ofNat 32 n := by
  apply BitVec.eq_of_toNat_eq
  simp [Nat.mod_eq_of_lt h]

theorem flagPair_eq (a b : Bool) : flagPair a b = BitVec.ofNat 32 (a.toNat + 2 * b.toNat) := by
  cases a <;> cases b <;> rfl

theorem bitAs_eq_ite (b : Bit) : bitAs 32 b = if b then 1 else 0 := by cases b <;> rfl

/-! ## Sequencing -/

@[simp] theorem andThen_next (s : State) (f : State → Result) : andThen (.next s) f = f s := rfl
@[simp] theorem andThen_fault (r : Fault) (f : State → Result) :
    andThen (.fault r) f = .fault r := rfl
@[simp] theorem andThen_refused (r : Refusal) (f : State → Result) :
    andThen (.refused r) f = .refused r := rfl

/-- A sequence that answers next went through a next state. -/
theorem andThen_eq_next {o : Result} {f : State → Result} {t : State} (h : andThen o f = .next t) :
    ∃ s, o = .next s ∧ f s = .next t := by
  cases o with
  | next s => exact ⟨s, rfl, h⟩
  | fault r => simp at h
  | refused r => simp at h

/-! ## Routing (44_engine_payload.md R171) -/

/-- All `routeAfterPayload` does. -/
theorem routeAfterPayload_eq (s : State) :
    routeAfterPayload s = { s with
      state := if s.frameType ≠ .fdData then .crc15 else if s.cfg.iso then .sbc
        else if s.dlc.toNat ≤ 10 then .crc17 else .crc21
      dsActive := if s.frameType = .fdData ∧ s.cfg.iso = false then false else s.dsActive
      fieldIdx := 0 } := by
  cases h : s.frameType <;> cases hi : s.cfg.iso <;>
    simp [routeAfterPayload, h, hi, goto, fdCrcState]

/-- All the end of a control field does. -/
theorem afterControl_eq (s : State) :
    afterControl s = { s with
      state := if 0 < s.byteCount then .data
        else if s.frameType ≠ .fdData then .crc15 else if s.cfg.iso then .sbc
        else if s.dlc.toNat ≤ 10 then .crc17 else .crc21
      dsActive := if s.byteCount = 0 ∧ s.frameType = .fdData ∧ s.cfg.iso = false then false
        else s.dsActive
      fieldIdx := 0 } := by
  by_cases h : s.byteCount = 0
  · simp [afterControl, h, routeAfterPayload_eq]
  · simp [afterControl, h, Nat.pos_of_ne_zero h, goto]

/-! ## DATA_BIT (44_engine_payload.md R170) -/

/-- All `dataBitCounted` does. -/
theorem dataBitCounted_eq (k : Nat) (b : Bit) (s : State) :
    dataBitCounted k b s = { s with
      markOut := some ⟨if b then .one else .zero, s.sampleIdx⟩
      recOut := if (s.fieldIdx + 1).toNat % 8 = 0 then
          some ⟨.data, (s.bufRead k).setWidth 32, BitVec.ofNat 32 k, s.fieldStart, s.bitEnd⟩
        else s.recOut
      fieldStart := if (s.fieldIdx + 1).toNat % 8 = 0 then s.bitEnd else s.fieldStart
      fieldIdx := s.fieldIdx + 1 } := by
  simp only [dataBitCounted, markBit_eq, putMark_fieldIdx, advance_fieldIdx]
  by_cases h8 : (s.fieldIdx + 1).toNat % 8 = 0 <;> simp only [h8, if_true, if_false] <;> rfl

/-- All `dataBitRouted` does. -/
theorem dataBitRouted_eq (s : State) :
    dataBitRouted s = { s with
      fieldIdx := if s.fieldIdx.toNat = 8 * s.byteCount then 0 else s.fieldIdx
      state := if s.fieldIdx.toNat = 8 * s.byteCount then
          (if s.frameType ≠ .fdData then .crc15 else if s.cfg.iso then .sbc
            else if s.dlc.toNat ≤ 10 then .crc17 else .crc21)
        else s.state
      dsActive := if s.fieldIdx.toNat = 8 * s.byteCount ∧ s.frameType = .fdData ∧ s.cfg.iso = false
        then false else s.dsActive } := by
  by_cases h : s.fieldIdx.toNat = 8 * s.byteCount
  · simp [dataBitRouted, h, routeAfterPayload_eq]
  · simp [dataBitRouted, h]

/-- Where DATA_BIT completes. -/
theorem execDataBit_eq (b : Bit) (s : State) (h : s.fieldIdx.toNat < 512) :
    execDataBit b s = .next (dataBitRouted (dataBitCounted (s.fieldIdx.toNat / 8) b
      { s with buf := memWrite s.buf (s.fieldIdx.toNat / 8)
                (shiftIn 0xFF (s.bufRead (s.fieldIdx.toNat / 8)) b) })) := by
  have hk : s.fieldIdx.toNat / 8 < bufSize := by unfold bufSize; omega
  simp only [execDataBit, bufWrite, if_pos hk, andThen_next]

end Sys2Proof.Machine
end

