-- ==== Sys2Proof/Laws/Exec.lean ====
section
/-! SUPPORT. The bit path, the tick and the step as equations on states, with the selector words evaluated:
what a proof about a bit, a tick or a step cites instead of unfolding them. -/

namespace Sys2Proof.Machine

/-! ## The datapath runs the meanings of Dispatch -/

theorem runDs_eq_exec (op : DsOp) (b : Bit) (s : State) : runDs op b s = exec (op.instr b) s := by
  cases op <;> rfl

theorem runEng_eq_exec (op : EngOp) (b : Bit) (s : State) : runEng op b s = exec (op.instr b) s := by
  cases op <;> rfl

/-- Every destuffer operation completes. -/
theorem runDs_completes (op : DsOp) (b : Bit) (s : State) : ∃ t, runDs op b s = .next t := by
  cases op <;> exact ⟨_, rfl⟩

/-- Every engine operation completes, DATA_BIT at a byte the buffer has. -/
theorem runEng_completes (op : EngOp) (b : Bit) (s : State)
    (h : op = .dataBit → s.fieldIdx.toNat < 512) : ∃ t, runEng op b s = .next t := by
  cases op
  case caBrs => cases b <;> exact ⟨_, rfl⟩
  case dataBit => exact ⟨_, execDataBit_eq b s (h rfl)⟩
  case crcdelBit =>
    cases b
    · exact ⟨_, rfl⟩
    · simp only [runEng, execCrcdelBit, if_true]
      split <;> exact ⟨_, rfl⟩
  all_goals exact ⟨_, rfl⟩

/-! ## The bit path -/

/-- The state the engine operation starts from: CRC-15 fed (43_engine_header.md R148). -/
def fed (b : Bit) (s : State) : State := if feedsCrc15 s.state then stepCrc15 b s else s

theorem fed_eq (b : Bit) (s : State) :
    fed b s = { s with crc15 := if feedsCrc15 s.state then crcStep poly15 s.crc15 b else s.crc15 } := by
  unfold fed; split <;> rfl

/-- The destuffer operation of a bit (42_destuffer.md R140). -/
def dsOpOf (s : State) (b : Bit) : DsOp :=
  if s.dsActive = false then .direct else if forcedSlot s then .forced
  else if runOfFive s then (if b == s.lastBit then .stuffError else .stuff)
  else if b == s.lastBit then .passSame else .passToggle

/-- The engine operation of a bit. -/
def engOpOf (s : State) (b : Bit) : Option EngOp :=
  selectEng s.state s.frameType b s.fieldIdx.toNat s.dlc

theorem engineStep_eq (b : Bit) (s : State) :
    engineStep b s =
      match engOpOf s b with
      | some op => runEng op b (fed b s)
      | none => .refused .noOperationSelected := by
  unfold engineStep crc15Feed fed
  split <;> simp only [execCrc15Step, andThen_next, decodeEng_state] <;> rfl

theorem bitPath_eq (b : Bit) (s : State) (h : s.runLength.toNat ≤ 5) :
    bitPath b s =
      andThen (runDs (dsOpOf s b) b s) fun u =>
        andThen (if (dsOpOf s b).outcome.reachesEngine then engineStep b u else .next u) fun t =>
          .next { t with prevBit := b } := by
  have hr : runLengthIllegal s = false := by simp [runLengthIllegal]; omega
  unfold bitPath
  rw [hr, decodeDs_state]
  rfl

/-- Everything a bit that reaches the engine can do. -/
theorem engineStep_eq_next {b : Bit} {s t : State} (h : engineStep b s = .next t) :
    ∃ op, engOpOf s b = some op ∧ runEng op b (fed b s) = .next t := by
  rw [engineStep_eq] at h
  split at h
  · exact ⟨_, ‹_›, h⟩
  · cases h

/-- Everything a sampled bit can do, when it completes. -/
theorem bitPath_eq_next {b : Bit} {s t : State} (h : bitPath b s = .next t) :
    s.runLength.toNat ≤ 5 ∧ ∃ u v, runDs (dsOpOf s b) b s = .next u ∧
      (if (dsOpOf s b).outcome.reachesEngine then engineStep b u else .next u) = .next v ∧
      t = { v with prevBit := b } := by
  have h5 : s.runLength.toNat ≤ 5 := by
    by_contra hc
    have hr : runLengthIllegal s = true := by simp [runLengthIllegal]; omega
    simp [bitPath, hr] at h
  rw [bitPath_eq b s h5] at h
  obtain ⟨u, hu, h⟩ := andThen_eq_next h
  obtain ⟨v, hv, h⟩ := andThen_eq_next h
  exact ⟨h5, u, v, hu, hv, (Host.Outcome.next.inj h).symm⟩

/-! ## The tick and the step -/

/-- A tick before its due test: outputs cleared, resynchronised on an edge, `prevLevel` written. -/
def clocked (v : Bit) (s : State) : State :=
  { afterResync v (clearOutputs s) with prevLevel := v }

theorem clocked_eq (v : Bit) (s : State) :
    clocked v s = { s with
      recOut := none, markOut := none
      nextCenter := if v = s.prevLevel then s.nextCenter else (s.sampleIdx : Int) + half s.period
      prevLevel := v } := by
  unfold clocked afterResync isEdge
  by_cases h : v = s.prevLevel <;> simp [h, resync, clearOutputs]; rfl

theorem clockEdge_eq (v : Bit) (s : State) : clockEdge v (clearOutputs s) = .next (clocked v s) := by
  unfold clockEdge clocked afterResync
  split <;> rfl

theorem execTick_eq (raw : Bit) (s : State) :
    execTick raw s =
      if s.cfg.legal then
        andThen (if isDue (clocked (raw ^^ s.cfg.invert) s) then
            execClkSample (raw ^^ s.cfg.invert) (clocked (raw ^^ s.cfg.invert) s)
          else .next (clocked (raw ^^ s.cfg.invert) s)) fun t =>
            .next { t with sampleIdx := t.sampleIdx + 1 }
      else .refused .illegalConfig := by
  unfold execTick underLegalConfig
  split
  · simp only [logicalLevel, clockEdge_eq, andThen_next]
  · rfl

/-- Everything a TICK can do, when it completes. -/
theorem execTick_eq_next {raw : Bit} {s t : State} (h : execTick raw s = .next t) :
    s.cfg.legal = true ∧
    ∃ u, (if isDue (clocked (raw ^^ s.cfg.invert) s) then
            execClkSample (raw ^^ s.cfg.invert) (clocked (raw ^^ s.cfg.invert) s)
          else .next (clocked (raw ^^ s.cfg.invert) s)) = .next u ∧
      t = { u with sampleIdx := u.sampleIdx + 1 } := by
  rw [execTick_eq] at h
  split at h
  · obtain ⟨u, hu, h⟩ := andThen_eq_next h
    exact ⟨‹_›, u, hu, (Host.Outcome.next.inj h).symm⟩
  · cases h

theorem step_nil {s : State} (h : s.input = []) : step s = .refused .noSample := by
  unfold step; rw [h]

/-- A step by the ports of its tick. -/
theorem step_cons {s : State} {p : PortIn} {rest : List PortIn} (h : s.input = p :: rest) :
    step s =
      if p.rst = false ∧ p.cfg ≠ s.cfg then .refused .configChangedWithoutReset
      else exec (if p.rst then .reset else .tick p.raw) { s with cfg := p.cfg, input := rest } := by
  unfold step
  rw [h]
  simp only [runTick, hostSelector, hostWordOf, decode_hostWord, acceptPorts]
  split <;> rfl

/-- Everything a step can do, when it completes. -/
theorem step_eq_next {s t : State} (h : step s = .next t) :
    ∃ p rest, s.input = p :: rest ∧ (p.rst = false → p.cfg = s.cfg) ∧
      ((p.rst = true ∧ p.cfg.legal = true ∧ t = State.resetWith p.cfg rest) ∨
       (p.rst = false ∧ execTick p.raw { s with cfg := p.cfg, input := rest } = .next t)) := by
  cases hi : s.input with
  | nil => rw [step_nil hi] at h; cases h
  | cons p rest =>
    rw [step_cons hi] at h
    split at h
    · cases h
    · rename_i hc
      have hcfg : p.rst = false → p.cfg = s.cfg := by simpa using hc
      cases hr : p.rst
      · rw [hr] at h
        exact ⟨p, rest, rfl, hcfg, .inr ⟨hr, h⟩⟩
      · rw [hr] at h
        simp only [if_true, exec, execReset, underLegalConfig] at h
        split at h
        · exact ⟨p, rest, rfl, hcfg, .inl ⟨hr, ‹_›, (Host.Outcome.next.inj h).symm⟩⟩
        · cases h

end Sys2Proof.Machine
end

