-- ==== Sys2Proof/Laws/Observation.lean ====
section
/-! SUPPORT. The small lemmas of what claims observe a run through: the registers other ticks write between
two bits of a field, bits taken one after another, and the states of a run. -/

namespace Sys2Proof.Machine

variable (g : Between) (s : State)

/-! ## Between.apply -/

@[simp] theorem Between.apply_cfg : (g.apply s).cfg = s.cfg := rfl
@[simp] theorem Between.apply_input : (g.apply s).input = g.input := rfl
@[simp] theorem Between.apply_recOut : (g.apply s).recOut = none := rfl
@[simp] theorem Between.apply_markOut : (g.apply s).markOut = none := rfl
@[simp] theorem Between.apply_sampleIdx : (g.apply s).sampleIdx = g.sampleIdx := rfl
@[simp] theorem Between.apply_prevLevel : (g.apply s).prevLevel = g.prevLevel := rfl
@[simp] theorem Between.apply_nextCenter : (g.apply s).nextCenter = g.nextCenter := rfl
@[simp] theorem Between.apply_dataRate : (g.apply s).dataRate = s.dataRate := rfl
@[simp] theorem Between.apply_dsActive : (g.apply s).dsActive = s.dsActive := rfl
@[simp] theorem Between.apply_runLength : (g.apply s).runLength = g.runLength := rfl
@[simp] theorem Between.apply_lastBit : (g.apply s).lastBit = g.lastBit := rfl
@[simp] theorem Between.apply_stuffCount : (g.apply s).stuffCount = g.stuffCount := rfl
@[simp] theorem Between.apply_crc15 : (g.apply s).crc15 = g.crc15 := rfl
@[simp] theorem Between.apply_crc17 : (g.apply s).crc17 = g.crc17 := rfl
@[simp] theorem Between.apply_crc21 : (g.apply s).crc21 = g.crc21 := rfl
@[simp] theorem Between.apply_state : (g.apply s).state = s.state := rfl
@[simp] theorem Between.apply_fieldIdx : (g.apply s).fieldIdx = s.fieldIdx := rfl
@[simp] theorem Between.apply_identifier : (g.apply s).identifier = s.identifier := rfl
@[simp] theorem Between.apply_rtr : (g.apply s).rtr = s.rtr := rfl
@[simp] theorem Between.apply_ide : (g.apply s).ide = s.ide := rfl
@[simp] theorem Between.apply_frameType : (g.apply s).frameType = s.frameType := rfl
@[simp] theorem Between.apply_brs : (g.apply s).brs = s.brs := rfl
@[simp] theorem Between.apply_esi : (g.apply s).esi = s.esi := rfl
@[simp] theorem Between.apply_dlc : (g.apply s).dlc = s.dlc := rfl
@[simp] theorem Between.apply_buf : (g.apply s).buf = s.buf := rfl
@[simp] theorem Between.apply_crcRx : (g.apply s).crcRx = s.crcRx := rfl
@[simp] theorem Between.apply_sbcBits : (g.apply s).sbcBits = s.sbcBits := rfl
@[simp] theorem Between.apply_ackSlot : (g.apply s).ackSlot = s.ackSlot := rfl
@[simp] theorem Between.apply_prevBit : (g.apply s).prevBit = g.prevBit := rfl
@[simp] theorem Between.apply_fieldStart : (g.apply s).fieldStart = s.fieldStart := rfl
@[simp] theorem Between.apply_errCount : (g.apply s).errCount = s.errCount := rfl
@[simp] theorem Between.apply_errCause : (g.apply s).errCause = s.errCause := rfl
@[simp] theorem Between.apply_errState : (g.apply s).errState = s.errState := rfl
@[simp] theorem Between.apply_period : (g.apply s).period = s.period := rfl
@[simp] theorem Between.apply_byteCount : (g.apply s).byteCount = s.byteCount := rfl
@[simp] theorem Between.apply_bufRead (k : Nat) : (g.apply s).bufRead k = s.bufRead k := rfl

/-- A bit ends by the time it arrives at. -/
@[simp] theorem Between.apply_bitEnd :
    (g.apply s).bitEnd = (g.sampleIdx : Int) - half s.period + s.period := rfl

/-! ## Bits one after another -/

@[simp] theorem execBitsAt_nil (op : Bit → Instr) : execBitsAt op [] s = .next s := rfl

theorem execBitsAt_cons {op : Bit → Instr} {b : Bit} {bits : List (Between × Bit)} {s t : State}
    (h : exec (op b) (g.apply s) = .next t) :
    execBitsAt op ((g, b) :: bits) s = execBitsAt op bits t := by
  simp only [execBitsAt, h, andThen]

theorem execBitsAt_append {op : Bit → Instr} {first rest : List (Between × Bit)} {s t : State}
    (h : execBitsAt op first s = .next t) :
    execBitsAt op (first ++ rest) s = execBitsAt op rest t := by
  induction first generalizing s with
  | nil => cases h; rfl
  | cons gb first ih =>
    obtain ⟨g, b⟩ := gb
    cases he : exec (op b) (g.apply s) with
    | next u =>
      rw [execBitsAt_cons g he] at h
      rw [List.cons_append, execBitsAt_cons g he, ih h]
    | fault f => simp [execBitsAt, he, andThen] at h
    | refused r => simp [execBitsAt, he, andThen] at h

/-! ## A run -/

/-- A run goes on from the state its first tick leaves. -/
theorem trace_succ {n : Nat} {s t : State} (h : step s = .next t) : trace (n + 1) s = t :: trace n t := by
  simp only [trace, h, nextState?]

end Sys2Proof.Machine
end

