-- ==== Sys2Proof/Laws/PerInstr.lean ====
section
/-! SUPPORT. Statements for all micro-operations, one lemma per constructor. -/

/-- The first slot of a micro-operation is one its row admits, and its selector there decodes to it. -/
def Sys2Proof.Laws.FirstSlot.Statement (i : Sys2Proof.Instr) : Prop :=
  Sys2Proof.WellFormed i → Sys2Proof.admits i (Sys2Proof.firstSlot i) = true ∧
    Sys2Proof.decode (Sys2Proof.encode i) = .ok i

namespace Sys2Proof.Laws.FirstSlot

theorem reset : Statement .reset := by unfold Statement; decide
theorem tick (raw : Bit) : Statement (.tick raw) := by revert raw; unfold Statement; decide
theorem clkResync : Statement .clkResync := by unfold Statement; decide
theorem clkSample (v : Bit) : Statement (.clkSample v) := by revert v; unfold Statement; decide
theorem clkSwitchUp : Statement .clkSwitchUp := by unfold Statement; decide
theorem clkSwitchDown : Statement .clkSwitchDown := by unfold Statement; decide
theorem crc15Step (b : Bit) : Statement (.crc15Step b) := by revert b; unfold Statement; decide
theorem crc17Step (b : Bit) : Statement (.crc17Step b) := by revert b; unfold Statement; decide
theorem crc21Step (b : Bit) : Statement (.crc21Step b) := by revert b; unfold Statement; decide
theorem dsDirect (b : Bit) : Statement (.dsDirect b) := by revert b; unfold Statement; decide
theorem dsForced (b : Bit) : Statement (.dsForced b) := by revert b; unfold Statement; decide
theorem dsStuff (b : Bit) : Statement (.dsStuff b) := by revert b; unfold Statement; decide
theorem dsStuffError (b : Bit) : Statement (.dsStuffError b) := by revert b; unfold Statement; decide
theorem dsPassSame (b : Bit) : Statement (.dsPassSame b) := by revert b; unfold Statement; decide
theorem dsPassToggle (b : Bit) : Statement (.dsPassToggle b) := by revert b; unfold Statement; decide
theorem idleRecessive (b : Bit) : Statement (.idleRecessive b) := by revert b; unfold Statement; decide
theorem idleSof (b : Bit) : Statement (.idleSof b) := by revert b; unfold Statement; decide
theorem idBit (b : Bit) : Statement (.idBit b) := by revert b; unfold Statement; decide
theorem idRtrSrr (b : Bit) : Statement (.idRtrSrr b) := by revert b; unfold Statement; decide
theorem idIde (b : Bit) : Statement (.idIde b) := by revert b; unfold Statement; decide
theorem idExtBit (b : Bit) : Statement (.idExtBit b) := by revert b; unfold Statement; decide
theorem idExtRtr (b : Bit) : Statement (.idExtRtr b) := by revert b; unfold Statement; decide
theorem cbFdf (b : Bit) : Statement (.cbFdf b) := by revert b; unfold Statement; decide
theorem cbRes (b : Bit) : Statement (.cbRes b) := by revert b; unfold Statement; decide
theorem ceFdf (b : Bit) : Statement (.ceFdf b) := by revert b; unfold Statement; decide
theorem ceR0 (b : Bit) : Statement (.ceR0 b) := by revert b; unfold Statement; decide
theorem caDlcClassic (b : Bit) : Statement (.caDlcClassic b) := by revert b; unfold Statement; decide
theorem caBrs (b : Bit) : Statement (.caBrs b) := by revert b; unfold Statement; decide
theorem caEsi (b : Bit) : Statement (.caEsi b) := by revert b; unfold Statement; decide
theorem caDlcFd (b : Bit) : Statement (.caDlcFd b) := by revert b; unfold Statement; decide
theorem dataBit (b : Bit) : Statement (.dataBit b) := by revert b; unfold Statement; decide
theorem sbcFsb (b : Bit) : Statement (.sbcFsb b) := by revert b; unfold Statement; decide
theorem sbcBit (b : Bit) : Statement (.sbcBit b) := by revert b; unfold Statement; decide
theorem sbcLast (b : Bit) : Statement (.sbcLast b) := by revert b; unfold Statement; decide
theorem crc15Bit (b : Bit) : Statement (.crc15Bit b) := by revert b; unfold Statement; decide
theorem crc15Last (b : Bit) : Statement (.crc15Last b) := by revert b; unfold Statement; decide
theorem crc17Fsb (b : Bit) : Statement (.crc17Fsb b) := by revert b; unfold Statement; decide
theorem crc17Bit (b : Bit) : Statement (.crc17Bit b) := by revert b; unfold Statement; decide
theorem crc17Last (b : Bit) : Statement (.crc17Last b) := by revert b; unfold Statement; decide
theorem crc21Fsb (b : Bit) : Statement (.crc21Fsb b) := by revert b; unfold Statement; decide
theorem crc21Bit (b : Bit) : Statement (.crc21Bit b) := by revert b; unfold Statement; decide
theorem crc21Last (b : Bit) : Statement (.crc21Last b) := by revert b; unfold Statement; decide
theorem crcdelBit (b : Bit) : Statement (.crcdelBit b) := by revert b; unfold Statement; decide
theorem ackSlot (b : Bit) : Statement (.ackSlot b) := by revert b; unfold Statement; decide
theorem ackDel (b : Bit) : Statement (.ackDel b) := by revert b; unfold Statement; decide
theorem eofBit (b : Bit) : Statement (.eofBit b) := by revert b; unfold Statement; decide
theorem ifsBit (b : Bit) : Statement (.ifsBit b) := by revert b; unfold Statement; decide
theorem errBit (b : Bit) : Statement (.errBit b) := by revert b; unfold Statement; decide

end Sys2Proof.Laws.FirstSlot
end

