-- ==== Sys2Proof/Tests/Slice0.lean ====
section
/-! SUPPORT. Tests. Expected values are the spec's: the words of 30_encoding.md R84, R85, R90, R95, and the
worked examples of the rules and of 95_test_vectors.md, named in each comment. After them the witnesses: for
every obligation with hypotheses, a concrete state and operands that meet them together. -/

namespace Sys2Proof.Tests

open Sys2Proof Sys2Proof.Machine

/-! ## Well-formedness -/

theorem test_wf_idle_recessive_refuses_dominant : ¬ WellFormed (.idleRecessive false) := by decide

theorem test_wf_idle_sof_refuses_recessive : ¬ WellFormed (.idleSof true) := by decide

/-! ## Decoding: one written selector per row of 30_encoding.md R90 -/

/-- HOST words: rst, edge, due, 0. -/
theorem test_decode_host :
    decode (.host 0b1110 false) = .ok .reset ∧ decode (.host 0b0000 true) = .ok (.tick true) ∧
    decode (.edge 0b0110) = .ok .clkResync ∧ decode (.due 0b0010 false) = .ok (.clkSample false) := by
  decide

/-- ENG words of the switches: CONTROL_AFTER_R0, FD_DATA, b = 1; CRCDEL, dataRate = 1, b = 1. -/
theorem test_decode_rate :
    decode (.rate 0b01001001 0) = .ok .clkSwitchUp ∧
    decode (.rate 0b10101011 0) = .ok .clkSwitchDown := by decide

/-- Format CALL. -/
theorem test_decode_crc :
    decode (.call .crc15 true) = .ok (.crc15Step true) ∧
    decode (.call .crc17 false) = .ok (.crc17Step false) ∧
    decode (.call .crc21 true) = .ok (.crc21Step true) := by decide

/-- DS words: dsActive, forced, run of five, equal. -/
theorem test_decode_ds :
    decode (.ds 0b0011 true) = .ok (.dsDirect true) ∧ decode (.ds 0b1110 true) = .ok (.dsForced true) ∧
    decode (.ds 0b1010 false) = .ok (.dsStuff false) ∧
    decode (.ds 0b1011 false) = .ok (.dsStuffError false) ∧
    decode (.ds 0b1001 true) = .ok (.dsPassSame true) ∧
    decode (.ds 0b1000 true) = .ok (.dsPassToggle true) := by decide

/-- IDLE is state 0, IDENTIFIER state 1. -/
theorem test_decode_identifier :
    decode (.eng 0b00000001 0 0) = .ok (.idleRecessive true) ∧
    decode (.eng 0b00000000 0 0) = .ok (.idleSof false) ∧
    decode (.eng 0b00010001 0 0) = .ok (.idBit true) ∧
    decode (.eng 0b00010000 10 0) = .ok (.idBit false) ∧
    decode (.eng 0b00010001 11 0) = .ok (.idRtrSrr true) ∧
    decode (.eng 0b00010000 12 0) = .ok (.idIde false) ∧
    decode (.eng 0b00010001 13 0) = .ok (.idExtBit true) ∧
    decode (.eng 0b00010001 30 0) = .ok (.idExtBit true) ∧
    decode (.eng 0b00010000 31 0) = .ok (.idExtRtr false) := by decide

/-- CONTROL_BASE is state 2, CONTROL_EXTENDED 3, CONTROL_AFTER_R0 4; frame type 2 is FD_DATA. -/
theorem test_decode_control :
    decode (.eng 0b00100001 0 0) = .ok (.cbFdf true) ∧
    decode (.eng 0b00101000 1 0) = .ok (.cbRes false) ∧
    decode (.eng 0b00110000 0 0) = .ok (.ceFdf false) ∧
    decode (.eng 0b00110001 1 0) = .ok (.ceR0 true) ∧
    decode (.eng 0b01000101 3 0) = .ok (.caDlcClassic true) ∧
    decode (.eng 0b01001000 0 0) = .ok (.caBrs false) ∧
    decode (.eng 0b01001011 1 0) = .ok (.caEsi true) ∧
    decode (.eng 0b01001010 2 0) = .ok (.caDlcFd false) ∧
    decode (.eng 0b01001010 5 0) = .ok (.caDlcFd false) := by decide

/-- DATA is state 5, SBC 6. -/
theorem test_decode_data_sbc :
    decode (.eng 0b01010001 63 8) = .ok (.dataBit true) ∧
    decode (.eng 0b01011000 511 15) = .ok (.dataBit false) ∧
    decode (.eng 0b01101001 0 0) = .ok (.sbcFsb true) ∧
    decode (.eng 0b01101000 1 0) = .ok (.sbcBit false) ∧
    decode (.eng 0b01101000 3 0) = .ok (.sbcBit false) ∧
    decode (.eng 0b01101001 4 0) = .ok (.sbcLast true) := by decide

/-- CRC15 is state 7, CRC17 8, CRC21 9; fixed stuff bits at `fieldIdx` a multiple of 5. -/
theorem test_decode_crc_fields :
    decode (.eng 0b01110001 13 0) = .ok (.crc15Bit true) ∧
    decode (.eng 0b01110000 14 0) = .ok (.crc15Last false) ∧
    decode (.eng 0b10001001 20 0) = .ok (.crc17Fsb true) ∧
    decode (.eng 0b10001000 19 0) = .ok (.crc17Bit false) ∧
    decode (.eng 0b10001001 21 0) = .ok (.crc17Last true) ∧
    decode (.eng 0b10011001 25 0) = .ok (.crc21Fsb true) ∧
    decode (.eng 0b10011000 24 0) = .ok (.crc21Bit false) ∧
    decode (.eng 0b10011001 26 0) = .ok (.crc21Last true) := by decide

/-- CRCDEL is state 10, ACK 11, ENDOFFRAME 12, INTERMISSION 13, DECODER_ERROR 14. -/
theorem test_decode_trailer :
    decode (.eng 0b10100001 0 0) = .ok (.crcdelBit true) ∧
    decode (.eng 0b10110000 0 0) = .ok (.ackSlot false) ∧
    decode (.eng 0b10110001 1 0) = .ok (.ackDel true) ∧
    decode (.eng 0b11000001 6 0) = .ok (.eofBit true) ∧
    decode (.eng 0b11010001 2 0) = .ok (.ifsBit true) ∧
    decode (.eng 0b11100000 0 0) = .ok (.errBit false) := by decide

/-- Selectors that fit no row are refused by name. -/
theorem test_decode_refusals :
    decode (.eng 0b11110000 0 0) = .error .unwrittenState ∧
    decode (.eng 0b00010000 32 0) = .error .slotOutOfRange ∧
    decode (.eng 0b01010000 64 8) = .error .slotOutOfRange ∧
    decode (.eng 0b01010000 0 0) = .error .slotOutOfRange ∧
    decode (.eng 0b10000000 22 0) = .error .slotOutOfRange ∧
    decode (.edge 0b1100) = .error .noEdge ∧ decode (.due 0b1010 true) = .error .noBitDue ∧
    decode (.rate 0b01001000 0) = .error .noSwitch ∧ decode (.rate 0b10100001 0) = .error .noSwitch := by
  decide

/-! ## Small states -/

/-- Configuration K8 of 95_test_vectors.md. -/
def k8 : Config := ⟨1000000, 125000, 0, 75, 75, false, true⟩

/-- Configuration K25 of 95_test_vectors.md. -/
def k25 : Config := ⟨5000000, 200000, 1000000, 80, 70, false, true⟩

/-- Configuration K1 of 95_test_vectors.md. -/
def k1 : Config := ⟨1000000, 1000000, 0, 75, 75, false, true⟩

/-- The reset state of a configuration at sample `c`. -/
def atSample (cfg : Config) (c : Nat) : State := { State.resetWith cfg [] with sampleIdx := c }

/-- A state of the engine at sample `c`. -/
def inField (cfg : Config) (c : Nat) (st : EngState) (idx : BitVec 10) : State :=
  { atSample cfg c with state := st, fieldIdx := idx }

/-- A state of the destuffer at sample 100. -/
def inRun (run : BitVec 3) (last : Bit) : State :=
  { inField k8 100 .identifier 4 with dsActive := true, runLength := run, lastBit := last, prevBit := last }

/-- A field of the next state. -/
def after {α : Type} (i : Instr) (s : State) (f : State → α) : Option α := (nextState? (exec i s)).map f

/-! ## Reset, tick and bit clock -/

/-- V-Z1. -/
theorem test_reset :
    after .reset (inField k8 1000 .data 17) (fun t => (t.state, t.nextCenter, t.sampleIdx)) =
      some (.idle, 4, 0) := by decide

/-- R121: a dominant level first seen in tick 16. -/
theorem test_tick_edge :
    after (.tick false) { atSample k8 16 with nextCenter := 20 } (fun t => (t.nextCenter, t.sampleIdx, t.state))
      = some (20, 17, .idle) := by decide

/-- R121: tick 20 delivers bit 0 with `c = 20`, taken as SOF. -/
theorem test_tick_due :
    after (.tick false) { atSample k8 20 with nextCenter := 20, prevLevel := false }
      (fun t => (t.nextCenter, t.state, t.markOut)) = some (28, .identifier, some ⟨.start, 20⟩) := by decide

/-- R210. -/
theorem test_clk_resync : after .clkResync (atSample k8 16) (·.nextCenter) = some 20 := by decide

/-- R211. -/
theorem test_clk_sample :
    after (.clkSample false) { atSample k8 20 with nextCenter := 20 } (fun t => (t.nextCenter, t.prevBit)) =
      some (28, false) := by decide

/-- V-C6. -/
theorem test_clk_switch_up_k32 :
    after .clkSwitchUp (atSample .k32 688) (fun t => (t.nextCenter, t.dataRate)) = some (702, true) := by decide

/-- V-C8, odd periods. -/
theorem test_clk_switch_up_k25 : after .clkSwitchUp (atSample k25 462) (·.nextCenter) = some 474 := by decide

/-- V-C7. -/
theorem test_clk_switch_down_k32 :
    after .clkSwitchDown { atSample .k32 1478 with dataRate := true } (fun t => (t.nextCenter, t.dataRate)) =
      some (1504, false) := by decide

/-- V-C9, odd periods. -/
theorem test_clk_switch_down_k25 :
    after .clkSwitchDown { atSample k25 673 with dataRate := true } (·.nextCenter) = some 692 := by decide

/-! ## CRC engines: the worked examples of R131 to R133 -/

theorem test_crc15_step :
    after (.crc15Step true) (atSample k8 0) (·.crc15) = some 0x4599 ∧
    after (.crc15Step true) { atSample k8 0 with crc15 := 0x4000 } (·.crc15) = some 0 ∧
    after (.crc15Step false) { atSample k8 0 with crc15 := 0x7FFF } (·.crc15) = some 0x3A67 := by decide

theorem test_crc17_step :
    after (.crc17Step false) { atSample k8 0 with crc17 := 0x10000 } (·.crc17) = some 0x1685B ∧
    after (.crc17Step false) { atSample k8 0 with crc17 := 0x1FFFF } (·.crc17) = some 0x097A5 := by decide

theorem test_crc21_step :
    after (.crc21Step false) { atSample k8 0 with crc21 := 0x100000 } (·.crc21) = some 0x102899 ∧
    after (.crc21Step false) { atSample k8 0 with crc21 := 0x1FFFFF } (·.crc21) = some 0x0FD767 := by decide

/-! ## Destuffer: V-D1 to V-D6 -/

theorem test_ds_direct :
    after (.dsDirect false) { atSample k8 100 with runLength := 3, lastBit := false }
      (fun t => (t.runLength, t.lastBit)) = some (3, false) := by decide

theorem test_ds_forced :
    after (.dsForced true) (inRun 5 false) (fun t => (t.runLength, t.lastBit, t.stuffCount, t.crc17)) =
      some (1, true, 0, 0) := by decide

theorem test_ds_stuff :
    after (.dsStuff true) (inRun 5 false) (fun t => (t.runLength, t.lastBit, t.stuffCount, t.markOut)) =
      some (1, true, 1, some ⟨.x, 100⟩) ∧
    after (.dsStuff true) (inRun 5 false) (fun t => (t.crc17, t.crc15)) = some (0x1685B, 0) := by decide

theorem test_ds_stuff_error :
    after (.dsStuffError true) (inRun 5 true)
      (fun t => (t.state, t.errCause, t.errState, t.dsActive, t.errCount, t.runLength)) =
      some (.decoderError, .stuff, .identifier, false, 0, 5) := by decide

theorem test_ds_pass_same :
    after (.dsPassSame false) { inRun 4 false with crc21 := 0x100000 } (fun t => (t.runLength, t.crc21)) =
      some (5, 0x102899) := by decide

theorem test_ds_pass_toggle :
    after (.dsPassToggle false) (inRun 2 true) (fun t => (t.runLength, t.lastBit)) = some (1, false) := by
  decide

/-! ## Engine header: the worked examples of R149 to R163 -/

theorem test_idle_recessive :
    after (.idleRecessive true) (atSample k8 12) (fun t => (t.state, t.markOut)) = some (.idle, none) := by
  decide

theorem test_idle_sof :
    after (.idleSof false) (atSample k8 20) (fun t => (t.crc17, t.crc21, t.crc15)) =
      some (0x1685B, 0x102899, 0) ∧
    after (.idleSof false) (atSample k8 20) (fun t => (t.fieldStart, t.state, t.markOut)) =
      some (16, .identifier, some ⟨.start, 20⟩) := by decide

/-- The eleventh bit of 0x123 = 00100100011. -/
theorem test_id_bit :
    after (.idBit true) { inField k8 108 .identifier 10 with identifier := 0b0010010001 }
      (fun t => (t.identifier, t.fieldIdx)) = some (0x123, 11) := by decide

theorem test_id_rtr_srr :
    after (.idRtrSrr true) (inField k8 116 .identifier 11) (fun t => (t.rtr, t.markOut)) =
      some (true, some ⟨.one, 116⟩) := by decide

theorem test_id_ide_base :
    after (.idIde false) { inField k8 124 .identifier 12 with identifier := 0x123, fieldStart := 16 }
      (fun t => (t.recOut, t.state)) = some (some ⟨.stdIdentifier, 0x123, 0, 16, 128⟩, .controlBase) := by
  decide

theorem test_id_ide_extended :
    after (.idIde true) (inField k8 124 .identifier 12) (fun t => (t.ide, t.fieldIdx, t.state, t.recOut)) =
      some (true, 13, .identifier, none) := by decide

/-- The last bit of ID_A = 0x7FF, ID_B = 0x00001. -/
theorem test_id_ext_bit :
    after (.idExtBit true) { inField k8 300 .identifier 30 with identifier := 0x0FFE0000 } (·.identifier) =
      some 0x1FFC0001 := by decide

theorem test_id_ext_rtr :
    after (.idExtRtr false) { inField k8 284 .identifier 31 with identifier := 0x1FFC0001, fieldStart := 16 }
      (fun t => (t.recOut, t.state)) =
      some (some ⟨.extIdentifier, 0x1FFC0001, 0, 16, 288⟩, .controlExtended) := by decide

theorem test_cb_fdf_classic :
    after (.cbFdf false) (inField k8 132 .controlBase 0) (fun t => (t.state, t.markOut)) =
      some (.controlAfterR0, some ⟨.dot, 132⟩) := by decide

/-- R156 (a): FD_DATA overrides REMOTE. -/
theorem test_cb_fdf_fd :
    after (.cbFdf true) { inField k8 132 .controlBase 0 with frameType := .remote }
      (fun t => (t.frameType, t.state, t.fieldIdx)) = some (.fdData, .controlBase, 1) := by decide

/-- V-H4. -/
theorem test_cb_res_form :
    after (.cbRes true) (inField k8 140 .controlBase 1) (fun t => (t.state, t.errCause, t.errState, t.markOut)) =
      some (.decoderError, .form, .controlBase, some ⟨.errorDot, 140⟩) := by decide

theorem test_ce_fdf :
    after (.ceFdf true) (inField k8 292 .controlExtended 0) (fun t => (t.frameType, t.markOut, t.fieldIdx)) =
      some (.fdData, some ⟨.one, 292⟩, 1) := by decide

theorem test_ce_r0 :
    after (.ceR0 false) (inField k8 300 .controlExtended 1) (fun t => (t.state, t.fieldIdx, t.markOut)) =
      some (.controlAfterR0, 0, some ⟨.dot, 300⟩) := by decide

/-- V-H5. -/
theorem test_ce_r0_form :
    after (.ceR0 true) (inField k8 300 .controlExtended 1) (fun t => (t.state, t.errCause, t.errState)) =
      some (.decoderError, .form, .controlExtended) := by decide

/-- DLC bits 1 0 1 0 of a data frame. -/
theorem test_ca_dlc_classic :
    after (.caDlcClassic false) { inField k8 164 .controlAfterR0 3 with dlc := 0b0101, fieldStart := 128 }
      (fun t => (t.recOut, t.state)) = some (some ⟨.classicControl, 0xA, 8, 128, 168⟩, .data) := by decide

/-- V-H2: a remote frame goes to CRC15 whatever its DLC. -/
theorem test_ca_dlc_remote :
    after (.caDlcClassic false)
      { inField k8 164 .controlAfterR0 3 with dlc := 0b0010, fieldStart := 128, frameType := .remote }
      (fun t => (t.recOut, t.state)) = some (some ⟨.classicControl, 4, 0, 128, 168⟩, .crc15) := by decide

theorem test_ca_brs :
    after (.caBrs true) { inField .k32 688 .controlAfterR0 0 with frameType := .fdData }
      (fun t => (t.markOut, t.dataRate, t.nextCenter, t.brs)) =
      some (some ⟨.upArrow, 688⟩, true, 702, true) := by decide

theorem test_ca_esi :
    after (.caEsi false) { inField k8 156 .controlAfterR0 1 with frameType := .fdData, esi := true }
      (fun t => (t.esi, t.markOut)) = some (false, some ⟨.zero, 156⟩) := by decide

/-- DLC bits 1 0 0 0 with brs = 1, esi = 0. -/
theorem test_ca_dlc_fd :
    after (.caDlcFd false)
      { inField k8 196 .controlAfterR0 5 with frameType := .fdData, dlc := 0b0100, brs := true, fieldStart := 128 }
      (fun t => (t.recOut, t.state)) = some (some ⟨.fdControl, 8, 1, 128, 200⟩, .data) := by decide

/-- V-P2: a non-ISO frame without data goes to CRC17, destuffing off. -/
theorem test_ca_dlc_fd_empty :
    after (.caDlcFd false)
      { inField { k8 with iso := false } 196 .controlAfterR0 5 with frameType := .fdData, dsActive := true }
      (fun t => (t.state, t.dsActive)) = some (.crc17, false) := by decide

/-! ## Engine payload: the worked examples of R170 to R184 -/

/-- DLC 1, data bits 00010001. -/
theorem test_data_bit :
    after (.dataBit true) { inField k8 228 .data 7 with dlc := 1, buf := [(0, 0x08)], fieldStart := 168 }
      (fun t => (t.recOut, t.buf, t.state, t.fieldIdx)) =
      some (some ⟨.data, 0x11, 0, 168, 232⟩, [(0, 0x11)], .crc15, 0) := by decide

/-- The last bit of a 64-byte ISO frame. -/
theorem test_data_bit_last_byte :
    after (.dataBit true) { inField k8 5000 .data 511 with dlc := 15, frameType := .fdData, dsActive := true }
      (fun t => (t.buf, t.state, t.dsActive)) = some ([(63, 1)], .sbc, true) := by decide

theorem test_sbc_fsb :
    after (.sbcFsb true) { inField k8 204 .sbc 0 with prevBit := false } (fun t => (t.markOut, t.fieldIdx)) =
      some (some ⟨.x, 204⟩, 1) := by decide

/-- V-P5. -/
theorem test_sbc_fsb_wrong :
    after (.sbcFsb false) { inField .k32 1262 .sbc 0 with prevBit := false }
      (fun t => (t.markOut, t.errCause, t.errState)) =
      some (some ⟨.errorX, 1262⟩, .fixedStuff, .sbc) := by decide

theorem test_sbc_bit :
    after (.sbcBit false) { inField k8 228 .sbc 3 with sbcBits := 0b01 } (fun t => (t.sbcBits, t.fieldIdx)) =
      some (0b010, 4) := by decide

/-- Stuff count 3, SBC bits 0101, DLC 8. -/
theorem test_sbc_last :
    after (.sbcLast true)
      { inField k8 236 .sbc 4 with sbcBits := 0b010, stuffCount := 3, dlc := 8, dsActive := true, fieldStart := 200 }
      (fun t => (t.recOut, t.state, t.dsActive)) =
      some (some ⟨.stuffBitCount, 3, 0, 200, 240⟩, .crc17, false) := by decide

/-- S4, fifth row: SBC bits 0100 have a parity error; count 3 against a stuff count of 12 mismatches. -/
theorem test_sbc_last_flags :
    after (.sbcLast false) { inField k8 236 .sbc 4 with sbcBits := 0b010, stuffCount := 12, dlc := 11 }
      (fun t => (t.recOut.map (·.p1), t.recOut.map (·.p2), t.state)) = some (some 3, some 3, .crc21) := by decide

theorem test_crc15_bit :
    after (.crc15Bit true) (inField k8 180 .crc15 0) (fun t => (t.crcRx, t.markOut)) =
      some (1, some ⟨.one, 180⟩) := by decide

/-- P1: received CRC 0x6858. -/
theorem test_crc15_last :
    after (.crc15Last false) { inField k8 292 .crc15 14 with crcRx := 0x342C, fieldStart := 176 }
      (fun t => (t.recOut, t.state)) = some (some ⟨.crc15, 0x6858, 0, 176, 296⟩, .crcdel) := by decide

/-- P4: the last CRC bit flipped, `crc15 = 0x4599`. -/
theorem test_crc15_last_wrong :
    after (.crc15Last true) { inField k8 292 .crc15 14 with crcRx := 0x342C, crc15 := 0x4599, fieldStart := 176 }
      (fun t => (t.recOut, t.markOut, t.state, t.errCause, t.errState)) =
      some (some ⟨.crc15, 0x6859, 1, 176, 296⟩, some ⟨.errorSquare, 292⟩, .decoderError, .crc15, .crc15) := by
  decide

theorem test_crc17_fsb :
    after (.crc17Fsb false) { inField k8 244 .crc17 0 with prevBit := true } (fun t => (t.markOut, t.fieldIdx)) =
      some (some ⟨.x, 244⟩, 1) := by decide

/-- V-P6. -/
theorem test_crc17_fsb_wrong :
    after (.crc17Fsb true) { inField k8 284 .crc17 5 with prevBit := true } (fun t => (t.errCause, t.errState)) =
      some (.fixedStuff, .crc17) := by decide

theorem test_crc21_fsb_wrong :
    after (.crc21Fsb false) { inField k8 284 .crc21 25 with prevBit := false }
      (fun t => (t.state, t.errCause, t.errState)) = some (.decoderError, .fixedStuff, .crc21) := by decide

theorem test_crc17_bit :
    after (.crc17Bit true) { inField k8 252 .crc17 1 with crc21 := 5 } (fun t => (t.crcRx, t.markOut, t.crc21)) =
      some (1, some ⟨.one, 252⟩, 5) := by decide

theorem test_crc21_bit :
    after (.crc21Bit false) { inField k8 252 .crc21 1 with crc17 := 5 } (fun t => (t.crcRx, t.markOut, t.crc17)) =
      some (0, some ⟨.zero, 252⟩, 5) := by decide

/-- P3: received CRC 0x1C496. -/
theorem test_crc17_last :
    after (.crc17Last false) { inField k8 412 .crc17 21 with crcRx := 0xE24B, fieldStart := 240 }
      (fun t => (t.recOut, t.state)) = some (some ⟨.crc17, 0x1C496, 0, 240, 416⟩, .crcdel) := by decide

/-- R183: a mismatch is flagged and the frame goes on. -/
theorem test_crc17_last_wrong :
    after (.crc17Last true) (inField k8 412 .crc17 21) (fun t => (t.recOut.map (·.p2), t.markOut, t.state)) =
      some (some 1, some ⟨.errorSquare, 412⟩, .crcdel) := by decide

/-- V-P3: received CRC 0xA70B4. -/
theorem test_crc21_last :
    after (.crc21Last false) { inField k8 1740 .crc21 26 with crcRx := 0x5385A, fieldStart := 1528 }
      (fun t => (t.recOut, t.state)) = some (some ⟨.crc21, 0xA70B4, 0, 1528, 1744⟩, .crcdel) := by decide

/-! ## Engine trailer and recovery: R190 to R198, P1, V-T4, V-E1 -/

theorem test_crcdel_switch_back :
    after (.crcdelBit true) { inField .k32 1478 .crcdel 0 with dataRate := true, frameType := .fdData }
      (fun t => (t.markOut, t.dataRate, t.nextCenter, t.state)) =
      some (some ⟨.downArrow, 1478⟩, false, 1504, .ack) := by decide

theorem test_crcdel_dominant :
    after (.crcdelBit false) { inField .k32 1478 .crcdel 0 with dataRate := true, nextCenter := 1486 }
      (fun t => (t.errCause, t.errState, t.dataRate, t.nextCenter)) =
      some (.form, .crcdel, false, 1486) := by decide

theorem test_ack_slot :
    after (.ackSlot false) (inField k8 308 .ack 0) (fun t => (t.ackSlot, t.markOut, t.fieldIdx)) =
      some (false, some ⟨.zero, 308⟩, 1) := by decide

theorem test_ack_del :
    after (.ackDel true) { inField k8 316 .ack 1 with ackSlot := false, fieldStart := 296 }
      (fun t => (t.recOut, t.state)) = some (some ⟨.ack, 0, 0, 296, 320⟩, .endOfFrame) := by decide

theorem test_eof_bit :
    after (.eofBit true) { inField k8 372 .endOfFrame 6 with fieldStart := 320 } (fun t => (t.recOut, t.state)) =
      some (some ⟨.eof, 0, 0, 320, 376⟩, .intermission) := by decide

/-- V-T2. -/
theorem test_eof_bit_dominant :
    after (.eofBit false) (inField k8 340 .endOfFrame 2) (fun t => (t.markOut, t.errCause, t.errState)) =
      some (some ⟨.errorDot, 340⟩, .form, .endOfFrame) := by decide

theorem test_ifs_bit :
    after (.ifsBit true) { inField k8 396 .intermission 2 with fieldStart := 376 }
      (fun t => (t.recOut, t.state)) = some (some ⟨.intermission, 0, 0, 376, 400⟩, .idle) := by decide

/-- V-T3. -/
theorem test_ifs_bit_dominant :
    after (.ifsBit false) (inField k8 396 .intermission 2) (fun t => (t.state, t.errCause, t.errState)) =
      some (.decoderError, .form, .intermission) := by decide

/-- V-E1: the eleventh recessive bit, taken at 404. -/
theorem test_err_bit_eleventh :
    after (.errBit true)
      { inField k8 404 .decoderError 0 with errCount := 10, errCause := .form, errState := .ack, fieldStart := 296 }
      (fun t => (t.recOut, t.state, t.errCount)) = some (some ⟨.error, 3, 11, 296, 408⟩, .idle, 0) := by decide

theorem test_err_bit_dominant :
    after (.errBit false) { inField k8 404 .decoderError 0 with errCount := 10 }
      (fun t => (t.errCount, t.state)) = some (0, .decoderError) := by decide

/-! ## Reset memory, and a word placed where the step finds it -/

theorem test_reset_buffer_canonical : Memory.wf State.reset.buf = true := by decide

/-- V-E3: with INVERT = 1 a high raw level is dominant. -/
theorem test_step_inverts :
    (nextState? (step { atSample { k8 with invert := true } 20 with
      nextCenter := 20, prevLevel := false, input := [⟨false, true, { k8 with invert := true }⟩] })).map (·.state) =
      some .identifier := by decide

/-- The table word 0xA1 placed after reset is a recessive CRC delimiter. -/
theorem test_fetch_word :
    decodeTableWord 8 0xA1 = some (.crcdelBit true) ∧
    (nextState? (step (State.reset.withFetchWord 8 0xA1))).map (·.state) = some .ack := by decide

/-! ## Witnesses -/

/-- An idle line, bit due. -/
def wIdle (cfg : Config) (raw : Bit) : State :=
  { atSample cfg 20 with nextCenter := 20, prevLevel := raw, input := [⟨false, raw, cfg⟩] }

/-- An FD frame (K32) at its recessive BRS bit, due. -/
def wBrs : State :=
  { inField .k32 688 .controlAfterR0 0 with
    frameType := .fdData, dsActive := true, runLength := 1, lastBit := false, prevBit := false
    nextCenter := 688, input := [⟨false, true, .k32⟩] }

/-- A classic frame at the last bit of its only data byte, due, after two dominant bits. -/
def wData : State :=
  { inField k8 228 .data 7 with
    dlc := 1, dsActive := true, runLength := 2, lastBit := false, prevBit := false
    buf := [(0, 0x08)], fieldStart := 168, nextCenter := 228, input := [⟨false, true, k8⟩] }

/-- An ISO FD frame at the fixed stuff bit of the SBC field, after five dominant bits, at the data rate. -/
def wSbc : State :=
  { inField .k32 1262 .sbc 0 with
    frameType := .fdData, brs := true, dataRate := true, dlc := 8, dsActive := true, runLength := 5
    lastBit := false, prevBit := false, nextCenter := 1262, input := [⟨false, false, .k32⟩] }

/-- Right after a FORM error in the ACK delimiter. -/
def wErr : State :=
  { inField k8 324 .decoderError 0 with
    runLength := 1, errCause := .form, errState := .ack, fieldStart := 296, nextCenter := 324
    input := [⟨false, true, k8⟩] }

/-- A bit that arrives at sample `c` of a recessive line. -/
def arriving (c : Nat) : Between := ⟨[], c, c, true, 1, true, 0, 0, 0, 0, true⟩

/-- V-E1: the first ten recessive bits after V-T1's error bit, eight samples apart from 324 on. -/
def fromErrorBit : List Between := (List.range 10).map fun k => arriving (324 + 8 * k)

theorem inv_wIdle_recessive : Inv (wIdle k8 true) :=
  ⟨by decide, rfl, rfl, ⟨by decide, fun _ => rfl, nofun, nofun⟩, nofun, trivial, ⟨by decide, nofun⟩, rfl⟩

theorem inv_wIdle_k1 : Inv (wIdle k1 true) :=
  ⟨by decide, rfl, rfl, ⟨by decide, fun _ => rfl, nofun, nofun⟩, nofun, trivial, ⟨by decide, nofun⟩, rfl⟩

theorem inv_wBrs : Inv wBrs :=
  ⟨by decide, ⟨by decide, by decide⟩, rfl, ⟨by decide, by decide, by decide, nofun⟩, nofun, trivial,
    ⟨by decide, nofun⟩, rfl⟩

theorem inv_wData : Inv wData :=
  ⟨by decide, (by decide : wData.fieldIdx.toNat < 8 * wData.byteCount), rfl,
    ⟨by decide, by decide, by decide, nofun⟩, nofun, trivial, ⟨by decide, nofun⟩, rfl⟩

theorem inv_wSbc : Inv wSbc :=
  ⟨by decide, (by decide : wSbc.fieldIdx.toNat ≤ 4), rfl, ⟨by decide, by decide, by decide, by decide⟩,
    by unfold rateScope; decide, ⟨rfl, rfl⟩, ⟨by decide, nofun⟩, rfl⟩

theorem inv_wErr : Inv wErr :=
  ⟨by decide, rfl, rfl, ⟨by decide, by decide, nofun, nofun⟩, nofun, trivial, ⟨by decide, by decide⟩, rfl⟩

/-- DATA_BIT at the last slot of a 64-byte FD frame, CRC17_FSB at the last fixed stuff bit, and the switch row. -/
theorem witness_EncodeThenDecodeInEverySlot :
    WellFormed (.dataBit true) ∧ admits (.dataBit true) ⟨0, 0x0A, 511, 15⟩ = true ∧
    WellFormed (.crc17Fsb false) ∧ admits (.crc17Fsb false) ⟨0, 0xFF, 20, 0⟩ = true ∧
    WellFormed .clkSwitchUp ∧ admits .clkSwitchUp ⟨0, 0xFF, 0, 0⟩ = true := by decide

theorem witness_DecodedSelectorIsAnEncoding :
    decode (.eng 0x8B 20 8) = .ok (.crc17Fsb true) ∧ decode (.host 0b1111 true) = .ok .reset := by decide

theorem witness_ExactlyOneEngineRowPerBit : ∃ s : State, Inv s ∧ s.state = .data :=
  ⟨wData, inv_wData, rfl⟩

theorem witness_StepRunsTheDecodedOperation :
    wBrs.input = [⟨false, true, .k32⟩] ∧
    decode (hostSelector ⟨false, true, .k32⟩ wBrs) = .ok (.tick true) ∧
    decode (hostSelector ⟨true, true, k8⟩ wBrs) = .ok .reset := by decide

/-- Each clause: no tick, a changed configuration, the five ways out of R44 at their boundary values, run
length 6, and byte index 64. -/
theorem witness_StopsAreNamed :
    State.reset.input = [] ∧ k8 ≠ (wIdle .k32 true).cfg ∧
    ({ k8 with arbRate := 0 } : Config).arbRate.toNat = 0 ∧
    ({ k8 with sampleRate := 124999 } : Config).sampleRate.toNat < k8.arbRate.toNat ∧
    ({ k8 with dataBitRate := 1000001 } : Config).sampleRate.toNat < 1000001 ∧
    100 < ({ k8 with spArb := 101 } : Config).spArb.toNat ∧
    100 < ({ k8 with spData := 101 } : Config).spData.toNat ∧
    5 < ({ wData with runLength := 6 } : State).runLength.toNat ∧
    512 ≤ ({ wData with fieldIdx := 512 } : State).fieldIdx.toNat := by decide

/-- A bit due without an edge, which CLK_SAMPLE refuses. -/
theorem witness_StopsAreNamed_tick :
    let s : State := { wData with runLength := 6 }
    s.cfg.legal = true ∧ (true ^^ s.cfg.invert) = s.prevLevel ∧ s.nextCenter ≤ (s.sampleIdx : Int) ∧
    exec (.clkSample true) { s with recOut := none, markOut := none, nextCenter := s.nextCenter, prevLevel := true } =
      .refused .runLengthOutOfRange := ⟨by decide, by decide, by decide, rfl⟩

/-- The first unselected slot of DATA, with the destuffer off and with a bit it passes: run length 4 and a
bit of either level. In the forced slot of SBC a row always applies. -/
theorem witness_StopsAreNamed_no_row (op : EngOp) (b : Bit) :
    ¬ mapCondition op { wData with fieldIdx := 8, dsActive := false } b ∧
    ¬ mapCondition op { wData with fieldIdx := 8, runLength := 4 } b := by
  cases op <;> simp +decide [mapCondition]

/-- The last byte of the buffer, a bit the destuffer keeps from an unselected slot, and a bit with a row. -/
theorem witness_NothingElseStops :
    let s : State := { wData with fieldIdx := 8, runLength := 5 }
    wData.cfg.legal = true ∧ ({ wData with fieldIdx := 511 } : State).fieldIdx.toNat < 512 ∧
    (s.dsActive = true ∧ ¬ (s.state = .sbc ∧ s.fieldIdx = 0) ∧ s.runLength = 5) ∧
    wData.runLength.toNat ≤ 5 ∧ mapCondition .dataBit wData true :=
  ⟨by decide, by decide, by decide, by decide, rfl, by decide, by decide⟩

theorem witness_TickComposesClockAndBitPath :
    k8.legal = true ∧ (∃ t, exec (.clkSample true)
      { wIdle k8 true with recOut := none, markOut := none } = .next t) ∧
    (wIdle k8 true).nextCenter ≤ ((wIdle k8 true).sampleIdx : Int) ∧
    ((atSample k8 3).sampleIdx : Int) < (atSample k8 3).nextCenter :=
  ⟨by decide, ⟨_, rfl⟩, by decide, by decide⟩

theorem witness_EdgeDefersTheDueSample :
    k8.legal = true ∧ 2 ≤ (wIdle k8 true).period ∧ (false ^^ k8.invert) ≠ (wIdle k8 true).prevLevel ∧
    k1.legal = true ∧ (wIdle k1 true).period = 1 ∧ Inv (wIdle k1 true) :=
  ⟨by decide, by decide, by decide, by decide, by decide, inv_wIdle_k1⟩

/-- Run length 5 with a stuff bit, and a bit that reaches the engine. -/
theorem witness_ClkSampleRunsTheSelectedOperations :
    decode (dsSelector { wData with runLength := 5 } true) = .ok (.dsStuff true) ∧
    decode (dsSelector wData true) = .ok (.dsPassToggle true) ∧
    decode (engSelector wData true) = .ok (.dataBit true) ∧ (∃ t, exec (.dataBit true) wData = .next t) :=
  ⟨by decide, by decide, by decide, ⟨_, rfl⟩⟩

theorem witness_ClkSampleCompletesUnderTheInvariant : Inv wSbc ∧ Inv wErr := ⟨inv_wSbc, inv_wErr⟩

theorem witness_TickCompletesAndCountsTheSample :
    Inv wBrs ∧ ∃ t, exec (.tick true) wBrs = .next t ∧ t.dataRate = true :=
  ⟨inv_wBrs, _, rfl, rfl⟩

/-- An ordinary tick, a reset tick that changes the configuration, and timelines with both. -/
theorem witness_AdmissibleStepsComplete :
    Inv wBrs ∧ admissible ⟨false, true, .k32⟩ wBrs ∧ admissible ⟨true, true, k8⟩ wBrs ∧
    admissibleRun wBrs.input wBrs.cfg ∧ k25.legal = true ∧
    admissibleRun [⟨false, true, k25⟩, ⟨true, true, k8⟩, ⟨false, false, k8⟩] k25 :=
  ⟨inv_wBrs, ⟨by decide, fun _ => rfl⟩, ⟨by decide, nofun⟩, ⟨by decide, fun _ => rfl, trivial⟩, by decide,
    by decide, fun _ => rfl, by decide, nofun, by decide, fun _ => rfl, trivial⟩

theorem witness_StepKeepsTheInvariant : Inv wData ∧ ∃ t, step wData = .next t ∧ t.state = .crc15 :=
  ⟨inv_wData, _, rfl, rfl⟩

theorem witness_ResetMeetsTheInvariant : k25.legal = true := by decide

/-- A tick before the first SOF, and a tick inside a frame. -/
theorem witness_RunLengthAfterEveryTick :
    (Inv (wIdle k8 true) ∧ ∃ t, step (wIdle k8 true) = .next t ∧ t.runLength.toNat = 0) ∧
    (Inv wData ∧ ∃ t, step wData = .next t ∧ t.dsActive = true) :=
  ⟨⟨inv_wIdle_recessive, _, rfl, rfl⟩, ⟨inv_wData, _, rfl, rfl⟩⟩

theorem witness_DataRateOnlyAfterRecessiveBrs :
    (Inv wBrs ∧ wBrs.dataRate = false ∧ ∃ t, step wBrs = .next t ∧ t.dataRate = true) ∧
    (Inv (wIdle k8 true) ∧ ∃ t, step (wIdle k8 true) = .next t ∧ t.state = .idle) :=
  ⟨⟨inv_wBrs, rfl, _, rfl, rfl⟩, ⟨inv_wIdle_recessive, _, rfl, rfl⟩⟩

theorem witness_ResetLoadsEveryRegister :
    wData.cfg.legal = true ∧ ∃ t, exec .reset wData = .next t ∧ wData.bufRead 0 = 0x08 :=
  ⟨by decide, _, rfl, rfl⟩

theorem witness_ResetTickForgetsEverything :
    ({ wData with input := [⟨true, true, k8⟩] } : State).input = [⟨true, true, k8⟩] ∧
    ({ wErr with input := [⟨true, false, k8⟩] } : State).input = [⟨true, false, k8⟩] := by decide

/-- The smallest period, 1, is that of a legal configuration. -/
theorem witness_PeriodAndBitExtent : (wIdle k1 true).cfg.legal = true ∧ (wIdle k1 true).period = 1 := by decide

/-- Sample points at both ends of their range. -/
theorem witness_BlendedLengthIsBounded :
    ({ Config.k32 with spArb := 100, spData := 0 } : Config).legal = true ∧
    ({ Config.k32 with spArb := 0, spData := 100 } : Config).legal = true := by decide

theorem witness_BitAfterARunOfFive :
    let s : State := { wData with runLength := 5 }
    s.dsActive = true ∧ ¬ (s.state = .sbc ∧ s.fieldIdx = 0) ∧ s.runLength = 5 ∧ true ≠ s.lastBit ∧
    false = s.lastBit := by decide

theorem witness_NoDynamicStuffingInSbc :
    Inv wSbc ∧ wSbc.state = .sbc ∧ ∃ t, exec (.clkSample false) wSbc = .next t ∧ t.state = .decoderError :=
  ⟨inv_wSbc, rfl, _, rfl, rfl⟩

/-- Two states that differ in a discarded frame only. -/
theorem witness_SofForgetsTheDiscardedFrame :
    ∃ s u : State, s ≠ u ∧ s.cfg = u.cfg ∧ s.input = u.input ∧ s.recOut = u.recOut ∧
      s.sampleIdx = u.sampleIdx ∧ s.prevLevel = u.prevLevel ∧ s.nextCenter = u.nextCenter ∧
      s.dataRate = u.dataRate ∧ s.prevBit = u.prevBit ∧ s.errCount = u.errCount ∧
      s.errCause = u.errCause ∧ s.errState = u.errState :=
  ⟨wIdle k8 true, { wIdle k8 true with identifier := 0x123, buf := [(0, 1)], crc15 := 7 }, by decide,
    rfl, rfl, rfl, rfl, rfl, rfl, rfl, rfl, rfl, rfl, rfl⟩

theorem witness_IdentifierIsAssembledMsbFirst :
    (inField k8 28 .identifier 0).identifier = 0 ∧ (inField k8 28 .identifier 0).fieldIdx = 0 ∧
    (List.replicate 11 (arriving 28)).length = 11 ∧ (List.replicate 18 (arriving 28)).length = 18 := by
  decide

theorem witness_ClassicDlcBitResult :
    (inField k8 156 .controlAfterR0 2).frameType ≠ .fdData ∧
    (inField k8 156 .controlAfterR0 2).fieldIdx.toNat ≠ 3 ∧
    (inField k8 164 .controlAfterR0 3).fieldIdx.toNat = 3 := by decide

theorem witness_FdDlcBitResult :
    wBrs.frameType = .fdData ∧ ({ wBrs with fieldIdx := 4 } : State).fieldIdx.toNat ≠ 5 ∧
    ({ wBrs with fieldIdx := 5 } : State).fieldIdx.toNat = 5 := by decide

theorem witness_DataBitShiftsIntoItsByte :
    (inField k8 5000 .data 511).fieldIdx.toNat < 512 ∧ Memory.wf (inField k8 5000 .data 511).buf = true := by
  decide

theorem witness_DataByteIsAssembledAndReported :
    let s : State := { inField k8 4940 .data 504 with frameType := .fdData, dlc := 15, buf := [(62, 1)] }
    63 < s.byteCount ∧ s.fieldIdx.toNat = 8 * 63 ∧ Memory.wf s.buf = true ∧ s.bufRead 63 = 0 ∧
    (List.replicate 7 (arriving 4940)).length = 7 := by decide

theorem witness_ByteCountOfEveryDlc :
    ({ wData with frameType := .remote } : State).frameType = .remote ∧ wData.frameType = .data ∧
    wBrs.frameType = .fdData := by decide

theorem witness_Crc15FieldBitResults :
    (inField k8 292 .crc15 14).crc15 = 0 ∧ ({ inField k8 292 .crc15 14 with crc15 := 0x4599 } : State).crc15 ≠ 0 := by
  decide

theorem witness_CrcDelimiterResults :
    (inField .k32 1478 .crcdel 0).dataRate = false ∧
    ({ inField .k32 1478 .crcdel 0 with dataRate := true } : State).dataRate = true := by decide

theorem witness_ErrorsAreThoseOfTheTable :
    isSingleOperation (.ackDel false) = true ∧ (inField k8 316 .ack 1).state ≠ .decoderError ∧
    ∃ t, exec (.ackDel false) (inField k8 316 .ack 1) = .next t ∧ t.state = .decoderError :=
  ⟨rfl, by decide, _, rfl, rfl⟩

theorem witness_NoErrorInsideDecoderError : Inv wErr ∧ wErr.state = .decoderError := ⟨inv_wErr, rfl⟩

theorem witness_RecoveryTakesElevenRecessiveBits :
    Inv wErr ∧ wErr.state = .decoderError ∧ wErr.errCount = 0 ∧ fromErrorBit.length = 10 ∧
    (∀ g ∈ fromErrorBit, g.runLength.toNat ≤ 5) ∧ (arriving 404).runLength.toNat ≤ 5 :=
  ⟨inv_wErr, rfl, rfl, rfl, by decide, by decide⟩

/-- V-T1, V-E1: the eleven recessive bits after the error bit are taken at 324 to 404, and the record is
`Error(0x3, 11) [296, 408)`. -/
theorem test_recovery_record_ends_with_the_eleventh_bit :
    ((nextState? (execBitsAt .clkSample ((fromErrorBit ++ [arriving 404]).map fun g => (g, true)) wErr)).map
      fun t => (t.state, t.recOut)) = some (.idle, some ⟨.error, 3, 11, 296, 408⟩) := by decide

/-- A tick with a record, a tick with an SOF, and a tick with neither. -/
theorem witness_RecordsAreContiguous :
    (Inv wData ∧ ∃ t, step wData = .next t ∧ t.recOut = some ⟨.data, 0x11, 0, 168, 232⟩) ∧
    (Inv wBrs ∧ ∃ t, step wBrs = .next t ∧ t.recOut = none) ∧
    ∃ t, step (wIdle k8 false) = .next t ∧ t.recOut = none ∧ t.state = .identifier :=
  ⟨⟨inv_wData, _, rfl, rfl⟩, ⟨inv_wBrs, _, rfl, rfl⟩, _, rfl, rfl, rfl⟩

theorem witness_MarksStandAtTheirSample :
    (Inv wData ∧ ∃ t, step wData = .next t ∧ t.markOut = some ⟨.one, 228⟩) ∧
    (Inv (wIdle k8 true) ∧ (wIdle k8 true).state = .idle ∧
      ∃ t, step (wIdle k8 true) = .next t ∧ t.state = .idle) ∧
    (Inv wErr ∧ wErr.state = .decoderError ∧ ∃ t, step wErr = .next t ∧ t.errCount = 1) :=
  ⟨⟨inv_wData, _, rfl, rfl⟩, ⟨inv_wIdle_recessive, rfl, _, rfl, rfl⟩, inv_wErr, rfl, _, rfl, rfl⟩

/-- An operation that writes the register of each clause. -/
theorem witness_ClockRegisterWriters :
    isSingleOperation (.caBrs true) = true ∧
    (∃ t, exec (.caBrs true) wBrs = .next t ∧ t.nextCenter ≠ wBrs.nextCenter ∧ t.dataRate ≠ wBrs.dataRate) :=
  ⟨rfl, _, rfl, by decide, by decide⟩

theorem witness_DestufferAndCrcRegisterWriters :
    isSingleOperation (.idleSof false) = true ∧
    (∃ t, exec (.idleSof false) (wIdle k8 false) = .next t ∧ t.runLength ≠ (wIdle k8 false).runLength ∧
      t.dsActive ≠ (wIdle k8 false).dsActive ∧ t.crc17 ≠ (wIdle k8 false).crc17 ∧
      t.crc21 ≠ (wIdle k8 false).crc21) ∧
    (∃ t, exec (.dsStuff true) wData = .next t ∧ t.stuffCount ≠ wData.stuffCount) ∧
    ∃ t, exec (.crc15Step true) wData = .next t ∧ t.crc15 ≠ wData.crc15 :=
  ⟨rfl, ⟨_, rfl, by decide, by decide, by decide, by decide⟩, ⟨_, rfl, by decide⟩, _, rfl, by decide⟩

theorem witness_FrameAccumulatorWriters :
    isSingleOperation (.idBit true) = true ∧ (∀ b, Instr.idBit true ≠ .idleSof b) ∧
    after (.idBit true) wData (·.identifier) ≠ some wData.identifier ∧
    after (.idRtrSrr true) wData (·.rtr) ≠ some wData.rtr ∧
    after (.idIde true) wData (·.ide) ≠ some wData.ide ∧
    after (.cbFdf true) wData (·.frameType) ≠ some wData.frameType ∧
    after (.caBrs true) wData (·.brs) ≠ some wData.brs ∧
    after (.caEsi true) wData (·.esi) ≠ some wData.esi ∧
    after (.caDlcFd false) wData (·.dlc) ≠ some wData.dlc ∧
    after (.crc17Bit true) wData (·.crcRx) ≠ some wData.crcRx ∧
    after (.sbcBit true) wData (·.sbcBits) ≠ some wData.sbcBits ∧
    after (.ackSlot false) wData (·.ackSlot) ≠ some wData.ackSlot ∧
    after (.ackDel true) wData (·.buf) = some wData.buf := by decide

end Sys2Proof.Tests
end

section
/-! PROOFS. The obligations of 10_state.md: what every step keeps (O16, O15, O18, O54), who writes which
register (O57, O58, O59), where the model stops and where it does not (O9, O60), and the derived values
(O22, O31, O41). First the operations' results and the bit path in terms of them, which the rest cites. -/

namespace Sys2Proof.Machine

/-! ## What a single operation leaves

One table for all operations but RESET, TICK and CLK_SAMPLE: the next state as a record update of the
state the operation starts from. The proofs below read it in place of the meanings. -/

/-- The mark of a bit's value, `markBit` of 43_engine_header.md. -/
def bitMark (b : Bit) (s : State) : Mark := ⟨if b then .one else .zero, s.sampleIdx⟩

/-- The mark of the last bit of a CRC field (44_engine_payload.md R178, R183, R184). -/
def crcMark (err : Bool) (b : Bit) (s : State) : Mark :=
  if err then ⟨.errorSquare, s.sampleIdx⟩ else bitMark b s

/-- The state a single operation leaves, DATA_BIT where the buffer has its byte. RESET, TICK and
CLK_SAMPLE run other operations and have no row of their own here. -/
def opResult (i : Instr) (s : State) : State :=
  match i with
  | .reset | .tick _ | .clkSample _ => s
  | .clkResync => resync s
  | .clkSwitchUp => rateSwitch true s
  | .clkSwitchDown => rateSwitch false s
  | .crc15Step b => { s with crc15 := crcStep poly15 s.crc15 b }
  | .crc17Step b => { s with crc17 := crcStep poly17 s.crc17 b }
  | .crc21Step b => { s with crc21 := crcStep poly21 s.crc21 b }
  | .dsDirect _ => s
  | .dsForced b => { s with runLength := 1, lastBit := b }
  | .dsStuff b => { s with
      markOut := some ⟨.x, s.sampleIdx⟩, runLength := 1, lastBit := b, stuffCount := s.stuffCount + 1
      crc17 := crcStep poly17 s.crc17 b, crc21 := crcStep poly21 s.crc21 b }
  | .dsStuffError _ => raiseError .stuff { s with markOut := some ⟨.errorX, s.sampleIdx⟩ }
  | .dsPassSame b => { s with
      runLength := s.runLength + 1
      crc17 := crcStep poly17 s.crc17 b, crc21 := crcStep poly21 s.crc21 b }
  | .dsPassToggle b => { s with
      runLength := 1, lastBit := b
      crc17 := crcStep poly17 s.crc17 b, crc21 := crcStep poly21 s.crc21 b }
  | .idleRecessive _ => s
  | .idleSof b => { s with
      identifier := 0, rtr := false, ide := false, frameType := .data, brs := false, esi := false
      dlc := 0, crcRx := 0, sbcBits := 0, ackSlot := recessive, buf := [], stuffCount := 0
      crc15 := crcStep poly15 seed15 b, crc17 := crcStep poly17 (seed17 s.cfg.iso) b
      crc21 := crcStep poly21 (seed21 s.cfg.iso) b
      dsActive := true, runLength := 1, lastBit := dominant
      fieldStart := s.bitStart, fieldIdx := 0, state := .identifier
      markOut := some ⟨.start, s.sampleIdx⟩ }
  | .idBit b | .idExtBit b => { s with
      fieldIdx := s.fieldIdx + 1, identifier := shiftIn 0x1FFFFFFF s.identifier b
      markOut := some (bitMark b s) }
  | .idRtrSrr b => { s with fieldIdx := 12, rtr := b, markOut := some (bitMark b s) }
  | .idIde b =>
    if b then { s with fieldIdx := 13, ide := true, markOut := some (bitMark b s) }
    else { s with
      ide := false, markOut := some (bitMark b s), frameType := if s.rtr then .remote else .data
      recOut := some ⟨.stdIdentifier, (s.identifier &&& 0x7FF).setWidth 32, bitAs 32 s.rtr,
        s.fieldStart, s.bitEnd⟩
      fieldStart := s.bitEnd, state := .controlBase, fieldIdx := 0 }
  | .idExtRtr b => { s with
      rtr := b, frameType := if b then .remote else .data, markOut := some (bitMark b s)
      recOut := some ⟨.extIdentifier, s.identifier.setWidth 32, bitAs 32 b, s.fieldStart, s.bitEnd⟩
      fieldStart := s.bitEnd, state := .controlExtended, fieldIdx := 0 }
  | .cbFdf b =>
    if b then { s with fieldIdx := 1, frameType := .fdData, markOut := some (bitMark b s) }
    else { s with markOut := some ⟨.dot, s.sampleIdx⟩, state := .controlAfterR0, fieldIdx := 0 }
  | .cbRes b | .ceR0 b =>
    if b then raiseError .form { s with fieldIdx := 2, markOut := some ⟨.errorDot, s.sampleIdx⟩ }
    else { s with markOut := some ⟨.dot, s.sampleIdx⟩, state := .controlAfterR0, fieldIdx := 0 }
  | .ceFdf b => { s with
      fieldIdx := 1, frameType := if b then .fdData else s.frameType, markOut := some (bitMark b s) }
  | .caDlcClassic b =>
    let u : State := { s with
      fieldIdx := s.fieldIdx + 1, dlc := shiftIn 0xF s.dlc b, markOut := some (bitMark b s) }
    if s.fieldIdx + 1 = 4 then
      afterControl { u with
        recOut := some ⟨.classicControl, u.dlc.setWidth 32, BitVec.ofNat 32 u.byteCount,
          s.fieldStart, s.bitEnd⟩
        fieldStart := s.bitEnd }
    else u
  | .caBrs b =>
    if b then rateSwitch true
      { s with fieldIdx := 1, brs := true, markOut := some ⟨.upArrow, s.sampleIdx⟩ }
    else { s with fieldIdx := 1, brs := false, markOut := some ⟨.zero, s.sampleIdx⟩ }
  | .caEsi b => { s with fieldIdx := 2, esi := b, markOut := some (bitMark b s) }
  | .caDlcFd b =>
    let u : State := { s with
      fieldIdx := s.fieldIdx + 1, dlc := shiftIn 0xF s.dlc b, markOut := some (bitMark b s) }
    if s.fieldIdx + 1 = 6 then
      afterControl { u with
        recOut := some ⟨.fdControl, u.dlc.setWidth 32, flagPair s.brs s.esi, s.fieldStart, s.bitEnd⟩
        fieldStart := s.bitEnd }
    else u
  | .dataBit b => dataBitRouted (dataBitCounted (s.fieldIdx.toNat / 8) b { s with
      buf := memWrite s.buf (s.fieldIdx.toNat / 8)
        (shiftIn 0xFF (s.bufRead (s.fieldIdx.toNat / 8)) b) })
  | .sbcFsb b =>
    if b = s.prevBit then
      raiseError .fixedStuff { s with fieldIdx := 1, markOut := some ⟨.errorX, s.sampleIdx⟩ }
    else { s with fieldIdx := 1, markOut := some ⟨.x, s.sampleIdx⟩ }
  | .crc17Fsb b | .crc21Fsb b =>
    if b = s.prevBit then
      raiseError .fixedStuff
        { s with fieldIdx := s.fieldIdx + 1, markOut := some ⟨.errorX, s.sampleIdx⟩ }
    else { s with fieldIdx := s.fieldIdx + 1, markOut := some ⟨.x, s.sampleIdx⟩ }
  | .sbcBit b => { s with
      fieldIdx := s.fieldIdx + 1, sbcBits := shiftIn 0xF s.sbcBits b, markOut := some (bitMark b s) }
  | .sbcLast b =>
    let bits := shiftIn 0xF s.sbcBits b
    { s with
      sbcBits := bits, markOut := some (bitMark b s)
      recOut := some ⟨.stuffBitCount, (sbcCount bits).setWidth 32,
        flagPair (sbcParityErr bits) (sbcCountErr bits s.stuffCount), s.fieldStart, s.bitEnd⟩
      fieldStart := s.bitEnd, dsActive := false, state := fdCrcState s.dlc, fieldIdx := 0 }
  | .crc15Bit b => { s with
      fieldIdx := s.fieldIdx + 1, crcRx := shiftIn rxMask15 s.crcRx b, markOut := some (bitMark b s) }
  | .crc15Last b =>
    let err : Bool := s.crc15 != 0
    let u : State := { s with
      fieldIdx := 15, crcRx := shiftIn rxMask15 s.crcRx b, markOut := some (crcMark err b s)
      recOut := some ⟨.crc15, (shiftIn rxMask15 s.crcRx b).setWidth 32, bitAs 32 err,
        s.fieldStart, s.bitEnd⟩
      fieldStart := s.bitEnd }
    if err then raiseError .crc15 u else { u with state := .crcdel, fieldIdx := 0 }
  | .crc17Bit b => { s with
      fieldIdx := s.fieldIdx + 1, crc17 := crcStep poly17 s.crc17 b
      crcRx := shiftIn rxMask17 s.crcRx b, markOut := some (bitMark b s) }
  | .crc21Bit b => { s with
      fieldIdx := s.fieldIdx + 1, crc21 := crcStep poly21 s.crc21 b
      crcRx := shiftIn rxMask21 s.crcRx b, markOut := some (bitMark b s) }
  | .crc17Last b =>
    let err : Bool := crcStep poly17 s.crc17 b != 0
    { s with
      crc17 := crcStep poly17 s.crc17 b, crcRx := shiftIn rxMask17 s.crcRx b
      markOut := some (crcMark err b s)
      recOut := some ⟨.crc17, (shiftIn rxMask17 s.crcRx b).setWidth 32, bitAs 32 err,
        s.fieldStart, s.bitEnd⟩
      fieldStart := s.bitEnd, state := .crcdel, fieldIdx := 0 }
  | .crc21Last b =>
    let err : Bool := crcStep poly21 s.crc21 b != 0
    { s with
      crc21 := crcStep poly21 s.crc21 b, crcRx := shiftIn rxMask21 s.crcRx b
      markOut := some (crcMark err b s)
      recOut := some ⟨.crc21, (shiftIn rxMask21 s.crcRx b).setWidth 32, bitAs 32 err,
        s.fieldStart, s.bitEnd⟩
      fieldStart := s.bitEnd, state := .crcdel, fieldIdx := 0 }
  | .crcdelBit b =>
    if b then
      let u : State := { s with
        dsActive := false, state := .ack, fieldIdx := 0
        markOut := some ⟨if s.dataRate then .downArrow else .dot, s.sampleIdx⟩ }
      if s.dataRate then rateSwitch false u else u
    else raiseError .form { s with dsActive := false, markOut := some ⟨.errorDot, s.sampleIdx⟩ }
  | .ackSlot b => { s with fieldIdx := 1, ackSlot := b, markOut := some (bitMark b s) }
  | .ackDel b =>
    if b then { s with
      markOut := some ⟨.dot, s.sampleIdx⟩
      recOut := some ⟨.ack, bitAs 32 s.ackSlot, 0, s.fieldStart, s.bitEnd⟩
      fieldStart := s.bitEnd, state := .endOfFrame, fieldIdx := 0 }
    else raiseError .form { s with fieldIdx := 2, markOut := some ⟨.errorDot, s.sampleIdx⟩ }
  | .eofBit b =>
    if b = false then raiseError .form
      { s with fieldIdx := s.fieldIdx + 1, markOut := some ⟨.errorDot, s.sampleIdx⟩ }
    else if s.fieldIdx + 1 = 7 then { s with
      markOut := some ⟨.dot, s.sampleIdx⟩, recOut := some ⟨.eof, 0, 0, s.fieldStart, s.bitEnd⟩
      fieldStart := s.bitEnd, state := .intermission, fieldIdx := 0 }
    else { s with fieldIdx := s.fieldIdx + 1, markOut := some ⟨.dot, s.sampleIdx⟩ }
  | .ifsBit b =>
    if b = false then raiseError .form
      { s with fieldIdx := s.fieldIdx + 1, markOut := some ⟨.errorDot, s.sampleIdx⟩ }
    else if s.fieldIdx + 1 = 3 then { s with
      markOut := some ⟨.dot, s.sampleIdx⟩
      recOut := some ⟨.intermission, 0, 0, s.fieldStart, s.bitEnd⟩
      fieldStart := s.bitEnd, state := .idle, fieldIdx := 0 }
    else { s with fieldIdx := s.fieldIdx + 1, markOut := some ⟨.dot, s.sampleIdx⟩ }
  | .errBit b =>
    if b = false then { s with errCount := 0 }
    else if s.errCount + 1 = 11 then { s with
      recOut := some ⟨.error, s.errCause.code.setWidth 32, s.errState.code.setWidth 32,
        s.fieldStart, s.bitEnd⟩
      fieldStart := s.bitEnd, state := .idle, errCount := 0, fieldIdx := 0 }
    else { s with errCount := s.errCount + 1 }

/-! The rows whose meaning branches before it updates a register. -/

theorem execSbcLast_eq (b : Bit) (s : State) :
    execSbcLast b s = .next (opResult (.sbcLast b) s) := by
  simp only [execSbcLast, setFieldIdx, sbcShift, markBit_eq, putMark, emit, goto]; rfl

theorem execCrc15Last_eq (b : Bit) (s : State) :
    execCrc15Last b s = .next (opResult (.crc15Last b) s) := by
  cases h : s.crc15 != 0 <;>
    simp only [execCrc15Last, setFieldIdx, crcRxShift, opResult, h] <;> rfl

theorem execCrc17Bit_eq (b : Bit) (s : State) :
    execCrc17Bit b s = .next (opResult (.crc17Bit b) s) := by
  simp only [execCrc17Bit, execCrc17Step, andThen_next, stepCrc17, crcRxShift, advance]; rfl

theorem execCrc21Bit_eq (b : Bit) (s : State) :
    execCrc21Bit b s = .next (opResult (.crc21Bit b) s) := by
  simp only [execCrc21Bit, execCrc21Step, andThen_next, stepCrc21, crcRxShift, advance]; rfl

theorem execCrc17Last_eq (b : Bit) (s : State) :
    execCrc17Last b s = .next (opResult (.crc17Last b) s) := by
  cases h : crcStep poly17 s.crc17 b != 0 <;>
    simp only [execCrc17Last, execCrc17Step, andThen_next, stepCrc17, setFieldIdx, crcRxShift,
      opResult, h] <;> rfl

theorem execCrc21Last_eq (b : Bit) (s : State) :
    execCrc21Last b s = .next (opResult (.crc21Last b) s) := by
  cases h : crcStep poly21 s.crc21 b != 0 <;>
    simp only [execCrc21Last, execCrc21Step, andThen_next, stepCrc21, setFieldIdx, crcRxShift,
      opResult, h] <;> rfl

theorem execCrcdelBit_eq (b : Bit) (s : State) :
    execCrcdelBit b s = .next (opResult (.crcdelBit b) s) := by
  cases b
  · rfl
  · cases h : s.dataRate <;> simp only [execCrcdelBit, opResult, h] <;> rfl

theorem execCaDlcClassic_eq (b : Bit) (s : State) :
    execCaDlcClassic b s = .next (opResult (.caDlcClassic b) s) := by
  simp only [execCaDlcClassic, dlcBit, advance, markBit_eq, putMark, emit]; rfl

theorem execCaDlcFd_eq (b : Bit) (s : State) :
    execCaDlcFd b s = .next (opResult (.caDlcFd b) s) := by
  simp only [execCaDlcFd, dlcBit, advance, markBit_eq, putMark, emit]; rfl

theorem execIdExtRtr_eq (b : Bit) (s : State) :
    execIdExtRtr b s = .next (opResult (.idExtRtr b) s) := by
  simp only [execIdExtRtr, setFieldIdx, markBit_eq, putMark, emit, goto]; rfl

/-- The meaning of every single operation is its row of the table. -/
theorem exec_eq_opResult {i : Instr} {s : State} (hi : isSingleOperation i = true)
    (hd : ∀ b, i = .dataBit b → s.fieldIdx.toNat < 512) : exec i s = .next (opResult i s) := by
  cases i
  case reset => cases hi
  case tick => cases hi
  case clkSample => cases hi
  case dataBit b => exact execDataBit_eq b s (hd b rfl)
  case idIde b => cases b <;> rfl
  case idExtRtr b => exact execIdExtRtr_eq b s
  case cbFdf b => cases b <;> rfl
  case ceFdf b => cases b <;> rfl
  case caBrs b => cases b <;> rfl
  case caDlcClassic b => exact execCaDlcClassic_eq b s
  case caDlcFd b => exact execCaDlcFd_eq b s
  case sbcLast b => exact execSbcLast_eq b s
  case crc15Last b => exact execCrc15Last_eq b s
  case crc17Bit b => exact execCrc17Bit_eq b s
  case crc17Last b => exact execCrc17Last_eq b s
  case crc21Bit b => exact execCrc21Bit_eq b s
  case crc21Last b => exact execCrc21Last_eq b s
  case crcdelBit b => exact execCrcdelBit_eq b s
  case eofBit b => cases b <;> rfl
  case ifsBit b => cases b <;> rfl
  case errBit b => cases b <;> rfl
  all_goals rfl

/-- DATA_BIT completes only at a byte the buffer has (10_state.md R31). -/
theorem fieldIdx_lt_of_execDataBit {b : Bit} {s t : State} (h : execDataBit b s = .next t) :
    s.fieldIdx.toNat < 512 := by
  obtain ⟨u, hu, -⟩ := andThen_eq_next h
  obtain ⟨hk, -⟩ | ⟨-, hfault⟩ := bufWrite_cases (s.fieldIdx.toNat / 8)
    (shiftIn 0xFF (s.bufRead (s.fieldIdx.toNat / 8)) b) s
  · unfold bufSize at hk; omega
  · rw [hfault] at hu; cases hu

/-- A single operation that completes leaves its row of the table. -/
theorem eq_opResult {i : Instr} {s t : State} (hi : isSingleOperation i = true)
    (h : exec i s = .next t) : t = opResult i s := by
  have hd : ∀ b, i = .dataBit b → s.fieldIdx.toNat < 512 := by
    rintro b rfl
    exact fieldIdx_lt_of_execDataBit h
  exact (Host.Outcome.next.inj ((exec_eq_opResult hi hd).symm.trans h)).symm

/-! ## Selection and the bit path in terms of the table -/

/-- The engine's selection is the map of 30_encoding.md R90. -/
theorem engOpOf_eq_some_iff {s : State} {b : Bit} {op : EngOp} :
    engOpOf s b = some op ↔ mapCondition op s b := by
  constructor
  · intro h
    cases hs : s.state <;> grind [engOpOf, selectEng, mapCondition, State.byteCount]
  · intro h
    cases op <;> grind [engOpOf, selectEng, mapCondition, State.byteCount]

theorem engOpOf_eq_none_iff {s : State} {b : Bit} :
    engOpOf s b = none ↔ ∀ op : EngOp, ¬ mapCondition op s b := by
  rw [Option.eq_none_iff_forall_ne_some]
  exact forall_congr' fun op => not_congr engOpOf_eq_some_iff

/-- The bits the destuffer hands on (42_destuffer.md R140): DIRECT, FORCED, PASS. -/
theorem reachesEngine_iff (s : State) (b : Bit) :
    (dsOpOf s b).outcome.reachesEngine = true ↔
      s.dsActive = false ∨ (s.state = .sbc ∧ s.fieldIdx = 0) ∨ s.runLength ≠ 5 := by
  have hforced : forcedSlot s = true ↔ s.state = .sbc ∧ s.fieldIdx = 0 := by simp [forcedSlot]
  have hfive : runOfFive s = true ↔ s.runLength = 5 := by simp [runOfFive]
  rw [← hforced, ne_eq, ← hfive]
  unfold dsOpOf
  split_ifs <;> simp_all [DsOp.outcome, DsOutcome.reachesEngine]

/-- A byte count is at most 64 (10_state.md R29). -/
theorem byteCount_le (ft : FrameType) (dlc : BitVec 4) : byteCount ft dlc ≤ 64 := by
  revert dlc; cases ft <;> decide

theorem runDs_eq (op : DsOp) (b : Bit) (s : State) :
    runDs op b s = .next (opResult (op.instr b) s) := by
  rw [runDs_eq_exec]
  exact exec_eq_opResult (by cases op <;> rfl) (by cases op <;> simp [DsOp.instr])

/-- A selected engine operation completes with its row of the table: the buffer has a data bit's byte. -/
theorem runEng_eq {op : EngOp} {b : Bit} {s : State} (hop : mapCondition op s b) :
    runEng op b s = .next (opResult (op.instr b) s) := by
  rw [runEng_eq_exec]
  refine exec_eq_opResult (by cases op <;> rfl) fun b' h => ?_
  obtain rfl : op = .dataBit := by cases op <;> simp_all [EngOp.instr]
  have := byteCount_le s.frameType s.dlc
  simp only [mapCondition, State.byteCount] at hop
  omega

/-- A destuffer operation that hands the bit on writes no register the engine's selection reads. -/
theorem mapCondition_dsResult {op : EngOp} {ds : DsOp} (h : ds.outcome.reachesEngine = true)
    (b : Bit) (s : State) :
    mapCondition op (fed b (opResult (ds.instr b) s)) b ↔ mapCondition op s b := by
  rw [fed_eq]
  cases ds
  case stuff => cases h
  case stuffError => cases h
  all_goals exact Iff.rfl

theorem bitPath_of_kept {b : Bit} {s : State} (h5 : s.runLength.toNat ≤ 5)
    (hds : (dsOpOf s b).outcome.reachesEngine = false) :
    bitPath b s = .next { opResult ((dsOpOf s b).instr b) s with prevBit := b } := by
  rw [bitPath_eq b s h5, runDs_eq, andThen_next, hds]
  rfl

theorem bitPath_of_mapCondition {b : Bit} {s : State} {op : EngOp} (h5 : s.runLength.toNat ≤ 5)
    (hds : (dsOpOf s b).outcome.reachesEngine = true) (hop : mapCondition op s b) :
    bitPath b s = .next { opResult (op.instr b) (fed b (opResult ((dsOpOf s b).instr b) s)) with
      prevBit := b } := by
  have hfed := (mapCondition_dsResult hds b s).2 hop
  rw [bitPath_eq b s h5, runDs_eq, andThen_next, hds, if_pos rfl, engineStep_eq,
    show engOpOf (opResult ((dsOpOf s b).instr b) s) b = some op from
      engOpOf_eq_some_iff.2 (by rwa [fed_eq] at hfed)]
  simp only [runEng_eq hfed, andThen_next]

theorem bitPath_of_no_row {b : Bit} {s : State} (h5 : s.runLength.toNat ≤ 5)
    (hds : (dsOpOf s b).outcome.reachesEngine = true) (hno : ∀ op : EngOp, ¬ mapCondition op s b) :
    bitPath b s = .refused .noOperationSelected := by
  have hno' : engOpOf (opResult ((dsOpOf s b).instr b) s) b = none := engOpOf_eq_none_iff.2 fun op h =>
    hno op ((mapCondition_dsResult hds b s).1 (by rw [fed_eq]; exact h))
  rw [bitPath_eq b s h5, runDs_eq, andThen_next, hds, if_pos rfl, engineStep_eq, hno', andThen_refused]

theorem bitPath_of_runLength_gt {b : Bit} {s : State} (h : 5 < s.runLength.toNat) :
    bitPath b s = .refused .runLengthOutOfRange := by
  unfold bitPath
  rw [if_pos (by simpa [runLengthIllegal] using h)]

/-! ## Who writes what

A register that a row of `opResult` does not name keeps its value in every branch of the row. -/

/-- Settles O57: only the two switches, with the rows that call them, CLK_RESYNC and an error entry name a
clock register. -/
theorem clockRegisterWriters : Obligations.ClockRegisterWriters := by
  intro i s t hi h
  have ht := eq_opResult hi h
  cases i <;> simp only [opResult, afterControl_eq, dataBitRouted_eq, dataBitCounted_eq] at ht
  case caBrs b | crcdelBit b => (repeat' split at ht) <;> subst ht <;> simp [*]
  all_goals (repeat' split at ht) <;> subst ht <;> simp

/-- Settles O58, row by row of `opResult`. -/
theorem destufferAndCrcRegisterWriters : Obligations.DestufferAndCrcRegisterWriters := by
  intro i s t hi h
  have ht := eq_opResult hi h
  cases i <;> simp only [opResult, afterControl_eq, dataBitRouted_eq, dataBitCounted_eq] at ht <;>
    (repeat' split at ht) <;> subst ht <;> simp

/-- Settles O59, row by row of `opResult`; IDLE_SOF, which clears the whole group, is excluded. -/
theorem frameAccumulatorWriters : Obligations.FrameAccumulatorWriters := by
  intro i s t hi hsof h
  have ht := eq_opResult hi h
  cases i
  case idleSof b => exact absurd rfl (hsof b)
  all_goals
    simp only [opResult, afterControl_eq, dataBitRouted_eq, dataBitCounted_eq] at ht
    (repeat' split at ht) <;> subst ht <;> simp [State.bufRead]

/-! ## The engine keeps its place -/

/-- The clauses of `Inv` that say where in a frame the engine stands. -/
structure Placed (s : State) : Prop where
  slot : slotInRange s
  scope : destufferScope s
  rate : rateScope s
  route : routeConsistent s

theorem placed_raiseError (c : ErrCause) (s : State) : Placed (raiseError c s) :=
  ⟨rfl, rfl, fun h => Bool.noConfusion h, trivial⟩

/-- No field has more than 512 slots, the 64 bytes of the longest data field. -/
theorem fieldIdx_lt {s : State} (h : slotInRange s) : s.fieldIdx.toNat < 512 := by
  have hbytes := byteCount_le s.frameType s.dlc
  unfold slotInRange State.byteCount at h
  split at h <;> bv_omega

/-- So counting a slot never wraps. -/
theorem toNat_succ_fieldIdx {s : State} (h : slotInRange s) :
    (s.fieldIdx + 1).toNat = s.fieldIdx.toNat + 1 := by
  have hlt := fieldIdx_lt h
  bv_omega

/-- Entering the CRC field of an FD frame, from SBC or past it (44_engine_payload.md R171, R175). -/
theorem placed_fdCrc {s : State} (hds : s.dsActive = false) (hft : s.frameType = .fdData)
    (hrate : s.dataRate = true → s.brs = true) : Placed (goto (fdCrcState s.dlc) s) := by
  by_cases hdlc : s.dlc.toNat ≤ 10
  · rw [fdCrcState, if_pos hdlc]
    exact ⟨Nat.zero_le _, hds, fun h => ⟨hft, hrate h, by simp⟩, hft, hdlc⟩
  · rw [fdCrcState, if_neg hdlc]
    exact ⟨Nat.zero_le _, hds, fun h => ⟨hft, hrate h, by simp⟩, hft, Nat.not_le.1 hdlc⟩

theorem placed_routeAfterPayload {s : State} (hds : s.dsActive = true)
    (hrate : s.dataRate = true → s.frameType = .fdData ∧ s.brs = true) :
    Placed (routeAfterPayload s) := by
  have crc15 (hft : s.frameType ≠ .fdData) : Placed (goto .crc15 s) :=
    ⟨Nat.zero_le _, hds, fun h => absurd (hrate h).1 hft, hft⟩
  unfold routeAfterPayload
  split
  next hft => exact crc15 (by simp [hft])
  next hft => exact crc15 (by simp [hft])
  next hft =>
    split_ifs with hiso
    · exact ⟨Nat.zero_le _, hds, fun h => ⟨hft, (hrate h).2, by simp⟩, hft, hiso⟩
    · exact placed_fdCrc (s := { s with dsActive := false }) rfl hft fun h => (hrate h).2

theorem placed_afterControl {s : State} (hds : s.dsActive = true)
    (hrate : s.dataRate = true → s.frameType = .fdData ∧ s.brs = true) :
    Placed (afterControl s) := by
  unfold afterControl
  split_ifs with hbytes
  · exact ⟨by simpa [slotInRange] using hbytes, hds,
      fun h => ⟨(hrate h).1, (hrate h).2, .inr (.inl rfl)⟩, trivial⟩
  · exact placed_routeAfterPayload hds hrate

theorem placed_dataBitRouted {s : State} (hs : s.state = .data)
    (hslot : s.fieldIdx.toNat ≤ 8 * s.byteCount) (hds : s.dsActive = true)
    (hrate : s.dataRate = true → s.frameType = .fdData ∧ s.brs = true) :
    Placed (dataBitRouted s) := by
  unfold dataBitRouted
  split_ifs with hlast
  · exact placed_routeAfterPayload hds hrate
  · have hlt : s.fieldIdx.toNat < 8 * s.byteCount := by omega
    constructor <;> simp_all [slotInRange, destufferScope, rateScope, routeConsistent]

/-- A selected engine operation leaves the engine in its place: in the next slot of its field, at the first
slot of the field that follows, or in DECODER_ERROR. The fields that follow a payload are the routes above. -/
theorem placed_opResult {op : EngOp} {b : Bit} {s : State} (h : Placed s)
    (hop : mapCondition op s b) : Placed (opResult (op.instr b) s) := by
  obtain ⟨slot, scope, rate, route⟩ := h
  have hnext := toNat_succ_fieldIdx slot
  cases op <;> simp only [mapCondition] at hop <;>
    simp only [slotInRange, destufferScope, rateScope, routeConsistent, hop]
      at slot scope rate route <;>
    simp only [EngOp.instr, opResult, ← BitVec.toNat_inj, hnext]
  case caDlcClassic | caDlcFd =>
    split_ifs with hlast
    · exact placed_afterControl scope (by simp_all)
    · constructor <;>
        simp_all [slotInRange, destufferScope, rateScope, routeConsistent, -BitVec.toNat_add]
      omega
  case dataBit =>
    rw [dataBitCounted_eq]
    exact placed_dataBitRouted hop.1 (hnext.trans_le slot) scope (by simp_all)
  case sbcLast =>
    obtain ⟨slot', scope', rate', route'⟩ :=
      placed_fdCrc (s := { s with dsActive := false }) rfl route.1 (by simp_all)
    exact ⟨slot', scope', rate', route'⟩
  all_goals (repeat' split) <;> constructor <;>
    simp_all [slotInRange, destufferScope, rateScope, routeConsistent, -BitVec.toNat_add] <;> omega

/-! ## What an engine operation does to the registers of the other groups -/

/-- What a selected engine operation other than IDLE_SOF may do, from `s` to `t`, to the registers that do
not say where in the frame the engine stands. -/
def EngineFrame (s t : State) : Prop :=
  t.cfg = s.cfg ∧ t.runLength = s.runLength ∧ t.lastBit = s.lastBit ∧
  (t.dsActive = true → s.dsActive = true) ∧
  (s.state = .idle → t.state = .idle) ∧
  (t.state = .sbc → t.fieldIdx = 0 ∨ (s.state = .sbc ∧ t.fieldIdx = s.fieldIdx + 1)) ∧
  (t.buf = s.buf ∨ ∃ v, t.buf = memWrite s.buf (s.fieldIdx.toNat / 8) v) ∧
  (t.errCount = s.errCount ∨ t.errCount = 0 ∨ (t.errCount = s.errCount + 1 ∧ t.errCount ≠ 11)) ∧
  (t.state = .decoderError →
    (s.state = .decoderError ∧ t.errCause = s.errCause ∧ t.errState = s.errState) ∨
      (s.state ≠ .idle ∧ s.state ≠ .decoderError ∧ t.errCause ≠ .none ∧ t.errState = s.state))

theorem fdCrcState_ne (dlc : BitVec 4) :
    fdCrcState dlc ≠ .sbc ∧ fdCrcState dlc ≠ .decoderError := by
  unfold fdCrcState
  split <;> decide

/-- Row by row: SBC_FSB and the route after a payload are the rows that reach SBC, ERR_BIT the one that
counts. -/
theorem engineFrame_opResult {op : EngOp} {b : Bit} {s : State} (hop : mapCondition op s b)
    (hsof : op ≠ .idleSof) : EngineFrame s (opResult (op.instr b) s) := by
  generalize ht : opResult (op.instr b) s = t
  unfold EngineFrame
  cases op <;> simp only [mapCondition] at hop <;>
    simp only [EngOp.instr, opResult, afterControl_eq, dataBitRouted_eq, dataBitCounted_eq] at ht
  case idleSof => exact absurd rfl hsof
  case sbcFsb =>
    have hfirst : s.fieldIdx = 0 := BitVec.eq_of_toNat_eq (by simpa using hop.2)
    split at ht <;> subst ht <;> simp [hop, hfirst]
  case sbcLast => subst ht; simp [hop, fdCrcState_ne]
  case errBit => (repeat' split at ht) <;> subst ht <;> simp_all
  all_goals (repeat' split at ht) <;> subst ht <;> simp [hop]

/-! ## The invariant across one bit -/

/-- The run registers after the destuffer has handed bit `b` on, before the engine: `b` is the last bit of
the run, and the run of a frame's SBC field is not longer than the slots taken with this one. -/
def runDestuffed (b : Bit) (s : State) : Prop :=
  s.runLength.toNat ≤ 5 ∧
  (s.runLength.toNat = 0 → s.state = .idle) ∧
  (s.dsActive = true → 1 ≤ s.runLength.toNat ∧ s.lastBit = b) ∧
  (s.state = .sbc → s.runLength.toNat ≤ s.fieldIdx.toNat + 1)

/-- `Inv` between the destuffer and the engine, for the bit `b`: `prevBit` is still the bit before. -/
structure Destuffed (b : Bit) (s : State) : Prop where
  legal : s.cfg.legal = true
  placed : Placed s
  run : runDestuffed b s
  err : errorConsistent s
  buf : Memory.wf s.buf = true

theorem Inv.placed {s : State} (h : Inv s) : Placed s := ⟨h.slot, h.scope, h.rate, h.route⟩

/-- `Inv` of a state and its next `prevBit`, from the place of the engine and the other clauses. -/
theorem Placed.inv {b : Bit} {s : State} (h : Placed s) (legal : s.cfg.legal = true)
    (run : runConsistent { s with prevBit := b }) (err : errorConsistent s)
    (buf : Memory.wf s.buf = true) : Inv { s with prevBit := b } :=
  ⟨legal, h.slot, h.scope, run, h.rate, h.route, err, buf⟩

theorem destuffed_fed {b : Bit} {s : State} (h : Destuffed b s) : Destuffed b (fed b s) := by
  obtain ⟨legal, ⟨slot, scope, rate, route⟩, run, err, buf⟩ := h
  rw [fed_eq]
  exact ⟨legal, ⟨slot, scope, rate, route⟩, run, err, buf⟩

/-- The condition under which 42_destuffer.md R140 selects each destuffer operation. -/
def dsCondition (op : DsOp) (s : State) (b : Bit) : Prop :=
  let checked : Prop := s.dsActive = true ∧ ¬ (s.state = .sbc ∧ s.fieldIdx = 0)
  match op with
  | .direct => s.dsActive = false
  | .forced => s.dsActive = true ∧ s.state = .sbc ∧ s.fieldIdx = 0
  | .stuff => checked ∧ s.runLength = 5 ∧ b ≠ s.lastBit
  | .stuffError => checked ∧ s.runLength = 5 ∧ b = s.lastBit
  | .passSame => checked ∧ s.runLength ≠ 5 ∧ b = s.lastBit
  | .passToggle => checked ∧ s.runLength ≠ 5 ∧ b ≠ s.lastBit

theorem dsCondition_dsOpOf (s : State) (b : Bit) : dsCondition (dsOpOf s b) s b := by
  unfold dsOpOf
  split_ifs <;> simp_all [dsCondition, forcedSlot, runOfFive]

/-- An active destuffer belongs to a frame in progress. -/
theorem frame_of_active {s : State} (h : destufferScope s) (hds : s.dsActive = true) :
    s.state ≠ .idle ∧ s.state ≠ .decoderError := by
  constructor <;> intro hs <;> simp [destufferScope, hs, hds] at h

theorem runLength_succ {r : BitVec 3} (h : r.toNat ≤ 5) : (r + 1).toNat = r.toNat + 1 := by
  bv_omega

/-- The run registers a destuffer operation leaves for the engine (42_destuffer.md R141, R142, R145,
R146). -/
theorem runDestuffed_dsResult {b : Bit} {s : State} (h : Inv s)
    (hds : (dsOpOf s b).outcome.reachesEngine = true) :
    runDestuffed b (opResult ((dsOpOf s b).instr b) s) := by
  obtain ⟨h5, h0, hactive, hsbc⟩ := h.run
  have hc := dsCondition_dsOpOf s b
  cases hop : dsOpOf s b <;> rw [hop] at hc hds <;>
    simp only [dsCondition] at hc <;> simp only [runDestuffed, DsOp.instr, opResult]
  case direct =>
    have hstate : s.state ≠ .sbc := fun hs => by simpa [destufferScope, hs, hc] using h.scope
    exact ⟨h5, h0, fun ha => by simp [hc] at ha, fun hs => absurd hs hstate⟩
  case forced => simp
  case stuff => cases hds
  case stuffError => cases hds
  case passSame =>
    obtain ⟨⟨-, hslot⟩, hfive, rfl⟩ := hc
    have hlt : s.runLength.toNat ≠ 5 := fun h => hfive (BitVec.eq_of_toNat_eq h)
    rw [runLength_succ h5]
    refine ⟨by omega, by omega, by simp, fun hs => ?_⟩
    have hpos : s.fieldIdx.toNat ≠ 0 := fun h => hslot ⟨hs, BitVec.eq_of_toNat_eq h⟩
    exact Nat.succ_le_succ (hsbc hs (Nat.one_le_iff_ne_zero.2 hpos))
  case passToggle => simp

/-- A destuffer operation that hands a bit on leads from the invariant to `Destuffed`. -/
theorem destuffed_dsResult {b : Bit} {s : State} (h : Inv s)
    (hds : (dsOpOf s b).outcome.reachesEngine = true) :
    Destuffed b (opResult ((dsOpOf s b).instr b) s) := by
  have hrun := runDestuffed_dsResult h hds
  obtain ⟨legal, slot, scope, -, rate, route, err, buf⟩ := h
  generalize dsOpOf s b = op at hds hrun ⊢
  cases op
  case stuff => cases hds
  case stuffError => cases hds
  all_goals exact ⟨legal, ⟨slot, scope, rate, route⟩, hrun, err, buf⟩

/-- A bit the destuffer keeps from the engine keeps the invariant: a stuff bit starts a run
(42_destuffer.md R143), a sixth equal bit enters DECODER_ERROR (R144). -/
theorem inv_of_kept {b : Bit} {s : State} (h : Inv s)
    (hds : (dsOpOf s b).outcome.reachesEngine = false) :
    Inv { opResult ((dsOpOf s b).instr b) s with prevBit := b } := by
  have hc := dsCondition_dsOpOf s b
  obtain ⟨legal, slot, scope, -, rate, route, err, buf⟩ := h
  cases hop : dsOpOf s b <;> rw [hop] at hc hds
  case stuff =>
    refine ⟨legal, slot, scope, ?_, rate, route, err, buf⟩
    simp [runConsistent, DsOp.instr, opResult]
  case stuffError =>
    obtain ⟨⟨hact, -⟩, hfive, -⟩ := hc
    have hframe := frame_of_active scope hact
    refine (placed_raiseError .stuff _).inv legal ?_ ⟨Nat.zero_le _, fun _ => ⟨by simp, hframe⟩⟩ buf
    simp [runConsistent, hfive]
  all_goals cases hds

theorem errCount_succ_le {n : BitVec 4} (h : n.toNat ≤ 10) (hn : n + 1 ≠ 11) : (n + 1).toNat ≤ 10 := by
  bv_omega

/-- IDLE_SOF on the dominant bit that selects it starts a run of one (43_engine_header.md R150). -/
theorem inv_idleSof {s : State} (h : Destuffed false s) (hs : s.state = .idle) :
    Inv { opResult (.idleSof false) s with prevBit := false } := by
  have hplaced := placed_opResult (op := .idleSof) h.placed ⟨hs, rfl⟩
  exact hplaced.inv h.legal (by simp [runConsistent, EngOp.instr, opResult])
    ⟨h.err.1, fun he => by simp [EngOp.instr, opResult] at he⟩ rfl

/-- A selected engine operation leads from `Destuffed` back to the invariant. -/
theorem inv_engine {op : EngOp} {b : Bit} {s : State} (h : Destuffed b s)
    (hop : mapCondition op s b) : Inv { opResult (op.instr b) s with prevBit := b } := by
  by_cases hsof : op = .idleSof
  case pos =>
    subst hsof
    obtain ⟨hs, rfl⟩ := hop
    exact inv_idleSof h hs
  obtain ⟨hcfg, hrun, hlast, hds, hidle, hsbc, hbuf, hcount, herror⟩ := engineFrame_opResult hop hsof
  obtain ⟨h5, h0, hactive, hslots⟩ := h.run
  have hbyte : s.fieldIdx.toNat / 8 < bufSize :=
    Nat.div_lt_of_lt_mul (fieldIdx_lt h.placed.slot)
  refine (placed_opResult h.placed hop).inv (hcfg ▸ h.legal) ⟨?_, ?_, ?_, ?_⟩ ⟨?_, ?_⟩ ?_
  · exact hrun ▸ h5
  · exact fun hz => hidle (h0 (hrun ▸ hz))
  · exact fun ha => hrun ▸ hlast ▸ hactive (hds ha)
  · intro hs hpos
    obtain hz | ⟨hs', hi⟩ := hsbc hs
    · simp [hz] at hpos
    · show (opResult _ _).runLength.toNat ≤ (opResult _ _).fieldIdx.toNat
      rw [hrun, hi, toNat_succ_fieldIdx h.placed.slot]
      exact hslots hs'
  · obtain hk | hz | ⟨hk, hne⟩ := hcount
    · exact hk ▸ h.err.1
    · simp [hz]
    · exact hk ▸ errCount_succ_le h.err.1 (hk ▸ hne)
  · intro he
    obtain ⟨hs', hcause, hstate⟩ | ⟨hs', hne, hcause, hstate⟩ := herror he
    · exact hcause ▸ hstate ▸ h.err.2 hs'
    · exact ⟨hcause, hstate ▸ ⟨hs', hne⟩⟩
  · obtain hk | ⟨v, hk⟩ := hbuf
    · exact hk ▸ h.buf
    · exact hk ▸ Memory.wf_memWrite h.buf v hbyte

/-! ## The bit path, the tick and the step keep the invariant -/

/-- Under the invariant the engine has a row for either bit (30_encoding.md R90). -/
theorem exists_mapCondition {s : State} (h : Inv s) (b : Bit) : ∃ op : EngOp, mapCondition op s b := by
  suffices hsome : engOpOf s b ≠ none by
    obtain ⟨op, hop⟩ := Option.ne_none_iff_exists'.1 hsome
    exact ⟨op, engOpOf_eq_some_iff.1 hop⟩
  have hslot := h.slot
  cases hs : s.state <;> grind [slotInRange, engOpOf, selectEng, State.byteCount]

/-- A bit that completes moves no port, no sample and not the level of the tick. -/
theorem bitPath_ports {b : Bit} {s t : State} (h : bitPath b s = .next t) :
    t.cfg = s.cfg ∧ t.input = s.input ∧ t.sampleIdx = s.sampleIdx ∧ t.prevLevel = s.prevLevel := by
  obtain ⟨-, u, v, hu, hv, rfl⟩ := bitPath_eq_next h
  rw [runDs_eq_exec] at hu
  obtain ⟨hcfg, hinput, hidx, hlevel, -⟩ :=
    clockRegisterWriters _ s u (by cases dsOpOf s b <;> rfl) hu
  split at hv
  · obtain ⟨op, -, hv⟩ := engineStep_eq_next hv
    rw [runEng_eq_exec, fed_eq] at hv
    obtain ⟨hcfg', hinput', hidx', hlevel', -⟩ :=
      clockRegisterWriters _ _ v (by cases op <;> rfl) hv
    exact ⟨hcfg'.trans hcfg, hinput'.trans hinput, hidx'.trans hidx, hlevel'.trans hlevel⟩
  · cases hv
    exact ⟨hcfg, hinput, hidx, hlevel⟩

theorem bitPath_keeps_inv {s : State} (h : Inv s) (b : Bit) :
    ∃ t, bitPath b s = .next t ∧ Inv t := by
  cases hds : (dsOpOf s b).outcome.reachesEngine
  · exact ⟨_, bitPath_of_kept h.run.1 hds, inv_of_kept h hds⟩
  · obtain ⟨op, hop⟩ := exists_mapCondition h b
    exact ⟨_, bitPath_of_mapCondition h.run.1 hds hop,
      inv_engine (destuffed_fed (destuffed_dsResult h hds)) ((mapCondition_dsResult hds b s).2 hop)⟩

/-- `Inv` reads neither the outputs nor the clock's cursor and level. -/
theorem inv_clocked {s : State} (h : Inv s) (v : Bit) : Inv (clocked v s) := by
  rw [clocked_eq]
  exact ⟨h.legal, h.slot, h.scope, h.run, h.rate, h.route, h.err, h.buf⟩

theorem inv_nextCenter {s : State} (h : Inv s) (c : Int) : Inv { s with nextCenter := c } :=
  ⟨h.legal, h.slot, h.scope, h.run, h.rate, h.route, h.err, h.buf⟩

theorem inv_sampleIdx {s : State} (h : Inv s) (n : Nat) : Inv { s with sampleIdx := n } :=
  ⟨h.legal, h.slot, h.scope, h.run, h.rate, h.route, h.err, h.buf⟩

/-- A bit taken by the clock in a state that keeps the invariant completes and keeps it. -/
theorem execClkSample_keeps_inv {s : State} (h : Inv s) (v : Bit) :
    ∃ t, execClkSample v s = .next t ∧ Inv t ∧ t.cfg = s.cfg ∧ t.input = s.input ∧
      t.sampleIdx = s.sampleIdx := by
  obtain ⟨t, ht, hinv⟩ := bitPath_keeps_inv (inv_nextCenter h ((s.sampleIdx : Int) + s.period)) v
  obtain ⟨hcfg, hinput, hidx, -⟩ := bitPath_ports ht
  exact ⟨t, ht, hinv, hcfg, hinput, hidx⟩

/-- The bit of a tick, when one is due (40_datapath.md R121). -/
theorem dueBit_keeps_inv {s : State} (h : Inv s) (v : Bit) :
    ∃ t, (if isDue s then execClkSample v s else .next s) = .next t ∧ Inv t ∧ t.cfg = s.cfg ∧
      t.input = s.input ∧ t.sampleIdx = s.sampleIdx := by
  split_ifs
  · exact execClkSample_keeps_inv h v
  · exact ⟨s, rfl, h, rfl, rfl, rfl⟩

/-- Every tick of a state that keeps the invariant completes, keeps it, and counts its sample. -/
theorem execTick_keeps_inv {s : State} (h : Inv s) (raw : Bit) :
    ∃ t, execTick raw s = .next t ∧ Inv t ∧ t.cfg = s.cfg ∧ t.input = s.input ∧
      t.sampleIdx = s.sampleIdx + 1 := by
  obtain ⟨u, hu, hinv, hports⟩ := dueBit_keeps_inv (inv_clocked h (raw ^^ s.cfg.invert)) _
  simp only [clocked_eq] at hports
  obtain ⟨hcfg, hinput, hidx⟩ := hports
  rw [execTick_eq, if_pos h.legal, hu, andThen_next]
  exact ⟨_, rfl, inv_sampleIdx hinv _, hcfg, hinput, congrArg (· + 1) hidx⟩

/-- The state RESET leaves keeps the invariant (70_reset_and_hazards.md R260). -/
theorem inv_resetWith {cfg : Config} (h : cfg.legal = true) (input : List PortIn) :
    Inv (State.resetWith cfg input) where
  legal := h
  slot := rfl
  scope := rfl
  run := ⟨Nat.zero_le _, fun _ => rfl, fun ha => Bool.noConfusion ha, fun hs => EngState.noConfusion hs⟩
  rate hr := Bool.noConfusion hr
  route := trivial
  err := ⟨Nat.zero_le _, fun he => EngState.noConfusion he⟩
  buf := rfl

/-- `Inv` reads the configuration only through its being legal, and not the ticks to come. -/
theorem inv_ports {s : State} {p : PortIn} (h : Inv s) (hp : p.cfg = s.cfg) (rest : List PortIn) :
    Inv { s with cfg := p.cfg, input := rest } := by
  rw [hp]
  exact ⟨h.legal, h.slot, h.scope, h.run, h.rate, h.route, h.err, h.buf⟩

/-- Settles O16: the bit path keeps it, hence the tick, hence the step; RESET loads a state that has it. -/
theorem stepKeepsTheInvariant : Obligations.StepKeepsTheInvariant := by
  intro s t h hstep
  obtain ⟨p, rest, -, hcfg, ⟨-, hlegal, rfl⟩ | ⟨hrst, htick⟩⟩ := step_eq_next hstep
  · exact inv_resetWith hlegal rest
  · obtain ⟨t', ht', hinv, -⟩ := execTick_keeps_inv (inv_ports h (hcfg hrst) rest) p.raw
    obtain rfl := Host.Outcome.next.inj (htick.symm.trans ht')
    exact hinv

/-- A tick with admissible ports completes. -/
theorem step_of_admissible {s : State} {p : PortIn} {rest : List PortIn} (h : Inv s)
    (hin : s.input = p :: rest) (hp : admissible p s) :
    ∃ t, step s = .next t ∧ t.cfg = p.cfg ∧ t.input = rest ∧
      t.sampleIdx = if p.rst then 0 else s.sampleIdx + 1 := by
  obtain ⟨hlegal, hsame⟩ := hp
  rw [step_cons hin, if_neg (fun hc => hc.2 (hsame hc.1))]
  cases hrst : p.rst
  · obtain ⟨t, ht, -, hcfg, hinput, hidx⟩ := execTick_keeps_inv (inv_ports h (hsame hrst) rest) p.raw
    exact ⟨t, ht, hcfg, hinput, hidx⟩
  · exact ⟨State.resetWith p.cfg rest, if_pos hlegal, rfl, rfl, rfl⟩

/-- A run over an admissible timeline takes every tick of it. -/
theorem trace_length_of_admissibleRun {input : List PortIn} {s : State} (h : Inv s)
    (hin : s.input = input) (hrun : admissibleRun input s.cfg) :
    (trace input.length s).length = input.length := by
  induction input generalizing s with
  | nil => rfl
  | cons p rest ih =>
    obtain ⟨hlegal, hsame, hrest⟩ := hrun
    obtain ⟨t, ht, hcfg, hinput, -⟩ := step_of_admissible h hin ⟨hlegal, hsame⟩
    rw [List.length_cons, trace_succ ht, List.length_cons,
      ih (stepKeepsTheInvariant s t h ht) hinput (hcfg ▸ hrest)]

/-- Settles O15: a tick completes from the invariant, which every step keeps, so a run goes on to the end of
its timeline. -/
theorem admissibleStepsComplete : Obligations.AdmissibleStepsComplete :=
  ⟨fun _ _ _ h hin hp => step_of_admissible h hin hp,
    fun _ h hrun => trace_length_of_admissibleRun h rfl hrun,
    fun _ input hlegal hrun => trace_length_of_admissibleRun (inv_resetWith hlegal input) rfl hrun⟩

/-! ## The run length and the record port across a tick -/

/-- Everything a completed bit leaves, in terms of the table. -/
theorem bitPath_cases {b : Bit} {s t : State} (h : bitPath b s = .next t) :
    s.runLength.toNat ≤ 5 ∧
    (t = { opResult ((dsOpOf s b).instr b) s with prevBit := b } ∨
      ∃ op : EngOp, (dsOpOf s b).outcome.reachesEngine = true ∧ mapCondition op s b ∧
        t = { opResult (op.instr b) (fed b (opResult ((dsOpOf s b).instr b) s)) with prevBit := b }) := by
  obtain ⟨h5, -⟩ := bitPath_eq_next h
  refine ⟨h5, ?_⟩
  cases hds : (dsOpOf s b).outcome.reachesEngine
  · exact .inl (Host.Outcome.next.inj (h.symm.trans (bitPath_of_kept h5 hds)))
  · by_cases hop : ∃ op : EngOp, mapCondition op s b
    · obtain ⟨op, hop⟩ := hop
      exact .inr ⟨op, rfl, hop,
        Host.Outcome.next.inj (h.symm.trans (bitPath_of_mapCondition h5 hds hop))⟩
    · rw [bitPath_of_no_row h5 hds (not_exists.1 hop)] at h
      cases h

/-- Everything a completed tick without reset does: it counts the sample after the due bit, if any. -/
theorem step_cases {s t : State} {p : PortIn} {rest : List PortIn} (hin : s.input = p :: rest)
    (hrst : p.rst = false) (h : step s = .next t) :
    ∃ (v : Bit) (u : State), u = clocked v { s with input := rest } ∧
      (t = { u with sampleIdx := s.sampleIdx + 1 } ∨
        ∃ (c : Int) (w : State), bitPath v { u with nextCenter := c } = .next w ∧
          t = { w with sampleIdx := s.sampleIdx + 1 }) := by
  obtain ⟨p', rest', hin', hcfg, ⟨hrst', -⟩ | ⟨-, htick⟩⟩ := step_eq_next h
  · rw [hin] at hin'; cases hin'; simp [hrst] at hrst'
  rw [hin] at hin'
  cases hin'
  rw [hcfg hrst] at htick
  obtain ⟨-, w, hw, rfl⟩ := execTick_eq_next htick
  refine ⟨p.raw ^^ s.cfg.invert, _, rfl, ?_⟩
  split at hw
  · obtain ⟨-, -, hidx, -⟩ := bitPath_ports hw
    exact .inr ⟨_, w, hw, by rw [hidx]; simp [clocked_eq]⟩
  · obtain rfl := Host.Outcome.next.inj hw
    exact .inl (by simp [clocked_eq])

/-- The destuffer never brings a run back to 0. -/
theorem runLength_dsResult_ne_zero {s : State} (op : DsOp) (b : Bit) (h5 : s.runLength.toNat ≤ 5)
    (hne : s.runLength.toNat ≠ 0) : (opResult (op.instr b) s).runLength.toNat ≠ 0 := by
  cases op
  case passSame =>
    show (s.runLength + 1).toNat ≠ 0
    rw [runLength_succ h5]
    omega
  case direct | stuffError => exact hne
  all_goals exact Nat.one_ne_zero

/-- Nor does the engine, which writes the run only at an SOF. -/
theorem runLength_engine_ne_zero {s : State} {op : EngOp} {b : Bit} (hop : mapCondition op s b)
    (hne : s.runLength.toNat ≠ 0) : (opResult (op.instr b) s).runLength.toNat ≠ 0 := by
  by_cases hsof : op = .idleSof
  · subst hsof
    exact Nat.one_ne_zero
  · obtain ⟨-, hrun, -⟩ := engineFrame_opResult hop hsof
    rwa [hrun]

theorem bitPath_runLength_ne_zero {b : Bit} {s t : State} (h : bitPath b s = .next t)
    (hne : s.runLength.toNat ≠ 0) : t.runLength.toNat ≠ 0 := by
  obtain ⟨h5, rfl | ⟨op, hds, hop, rfl⟩⟩ := bitPath_cases h
  · exact runLength_dsResult_ne_zero _ b h5 hne
  · refine runLength_engine_ne_zero ((mapCondition_dsResult hds b s).2 hop) ?_
    rw [fed_eq]
    exact runLength_dsResult_ne_zero _ b h5 hne

/-- Settles O18: the bounds are the invariant's; a run that is not 0 stays so through the bit path. -/
theorem runLengthAfterEveryTick : Obligations.RunLengthAfterEveryTick := by
  intro s t p rest h hin hstep
  obtain ⟨h5, h0, hactive, -⟩ := (stepKeepsTheInvariant s t h hstep).run
  refine ⟨h5, fun hz => ⟨h0 hz, fun hrst => ?_⟩, fun ha => (hactive ha).2⟩
  by_contra hne
  obtain ⟨v, u, rfl, rfl | ⟨c, w, hw, rfl⟩⟩ := step_cases hin hrst hstep
  · simp only [clocked_eq] at hz
    exact hne hz
  · exact bitPath_runLength_ne_zero hw (by simpa only [clocked_eq] using hne) hz

/-- What an operation may do to the record port: leave it and `fieldStart` alone, or put out a record that
starts at `fieldStart` and move `fieldStart` to its end (20_memory.md R71). -/
def RecordStep (s t : State) : Prop :=
  (t.recOut = s.recOut ∧ t.fieldStart = s.fieldStart) ∨
  ∃ r, t.recOut = some r ∧ r.startAt = s.fieldStart ∧ t.fieldStart = r.endAt

theorem RecordStep.of_eq {s s' t : State} (h : RecordStep s' t) (hrec : s'.recOut = s.recOut)
    (hstart : s'.fieldStart = s.fieldStart) : RecordStep s t := by
  rwa [RecordStep, hrec, hstart] at h

theorem recordStep_opResult (i : Instr) (s : State) (hsof : ∀ b, i ≠ .idleSof b) :
    RecordStep s (opResult i s) := by
  generalize ht : opResult i s = t
  unfold RecordStep
  cases i
  case idleSof b => exact absurd rfl (hsof b)
  all_goals
    simp only [opResult, afterControl_eq, dataBitRouted_eq, dataBitCounted_eq] at ht
    (repeat' split at ht) <;> subst ht <;> simp

theorem dsResult_record (op : DsOp) (b : Bit) (s : State) :
    (opResult (op.instr b) s).recOut = s.recOut ∧
      (opResult (op.instr b) s).fieldStart = s.fieldStart := by
  cases op <;> exact ⟨rfl, rfl⟩

theorem dsResult_bitStart {op : DsOp} (h : op.outcome.reachesEngine = true) (b : Bit) (s : State) :
    (opResult (op.instr b) s).bitStart = s.bitStart := by
  cases op
  case stuff => cases h
  case stuffError => cases h
  all_goals rfl

/-- A bit puts out at most one record, from `fieldStart` on; only an SOF moves `fieldStart` without one. -/
theorem bitPath_record {b : Bit} {s t : State} (h : bitPath b s = .next t) :
    RecordStep s t ∨
      (s.state = .idle ∧ t.state = .identifier ∧ t.recOut = s.recOut ∧ t.fieldStart = s.bitStart) := by
  obtain ⟨-, rfl | ⟨op, hds, hop, rfl⟩⟩ := bitPath_cases h
  · exact .inl (.inl (dsResult_record _ b s))
  · obtain ⟨hrec, hstart⟩ := dsResult_record (dsOpOf s b) b s
    by_cases hsof : op = .idleSof
    · subst hsof
      rw [fed_eq]
      exact .inr ⟨hop.1, rfl, hrec, dsResult_bitStart hds b s⟩
    · have hstep := recordStep_opResult (op.instr b) (fed b (opResult ((dsOpOf s b).instr b) s))
        fun b' hb => hsof (by cases op <;> simp_all [EngOp.instr])
      exact .inl (hstep.of_eq (by rw [fed_eq, hrec]) (by rw [fed_eq, hstart]))

/-- Settles O54: a tick clears the record port before its bit, which puts out at most one record. -/
theorem recordsAreContiguous : Obligations.RecordsAreContiguous := by
  intro s t p rest h hin hrst hstep
  obtain ⟨v, u, rfl, rfl | ⟨c, w, hw, rfl⟩⟩ := step_cases hin hrst hstep
  · simp [clocked_eq]
  · rw [clocked_eq] at hw
    obtain (⟨hrec, hstart⟩ | ⟨r, hrec, hfrom, hto⟩) | ⟨hidle, hid, hrec, hstart⟩ := bitPath_record hw
    · exact ⟨fun r hr => by simp [hrec] at hr, fun _ => .inl hstart⟩
    · refine ⟨fun r' hr => ?_, fun hnone => by simp [hrec] at hnone⟩
      obtain rfl : r = r' := by simpa [hrec] using hr
      exact ⟨hfrom, hto⟩
    · exact ⟨fun r hr => by simp [hrec] at hr, fun _ => .inr ⟨hidle, hid, hstart⟩⟩

/-! ## Stops -/

/-- The configurations outside the table of 10_state.md R44, written out. -/
theorem legal_eq_false_iff (cfg : Config) : cfg.legal = false ↔
    cfg.arbRate.toNat = 0 ∨ cfg.sampleRate.toNat < cfg.arbRate.toNat ∨
      cfg.sampleRate.toNat < cfg.dataBitRate.toNat ∨ 100 < cfg.spArb.toNat ∨ 100 < cfg.spData.toNat := by
  rw [← Bool.not_eq_true]
  simp only [Config.legal, Bool.and_eq_true, decide_eq_true_eq]
  omega

theorem exec_reset_illegal {s : State} (h : s.cfg.legal = false) :
    exec .reset s = .refused .illegalConfig := by
  simp [exec, execReset, underLegalConfig, h]

theorem exec_tick_illegal {s : State} (h : s.cfg.legal = false) (raw : Bit) :
    exec (.tick raw) s = .refused .illegalConfig := by
  simp [exec, execTick, underLegalConfig, h]

/-- A TICK whose bit is due stops where its CLK_SAMPLE does (40_datapath.md R121). -/
theorem exec_tick_refused {s : State} {raw : Bit} {r : Refusal} (hlegal : s.cfg.legal = true)
    (hdue : isDue (clocked (raw ^^ s.cfg.invert) s) = true)
    (h : exec (.clkSample (raw ^^ s.cfg.invert)) (clocked (raw ^^ s.cfg.invert) s) = .refused r) :
    exec (.tick raw) s = .refused r := by
  simp only [exec] at h ⊢
  rw [execTick_eq, if_pos hlegal, if_pos hdue, h, andThen_refused]

theorem execDataBit_fault {s : State} (h : 512 ≤ s.fieldIdx.toNat) (b : Bit) :
    execDataBit b s = .fault (.bufferIndex (s.fieldIdx.toNat / 8)) := by
  have hk : ¬ s.fieldIdx.toNat / 8 < bufSize := by unfold bufSize; omega
  simp only [execDataBit, bufWrite, if_neg hk, andThen_fault]

/-- Settles O9: each stop from the equation of the operation that makes it. -/
theorem stopsAreNamed : Obligations.StopsAreNamed := by
  intro s illegal
  refine ⟨step_nil, fun p rest hin => ⟨fun hrst hne => ?_, fun hsame hill => ?_⟩, fun hill => ?_,
    fun raw hlegal hdue r h => ?_, fun b => ⟨?_, fun h5 hds hno => ?_, fun hk => ?_⟩⟩
  · rw [step_cons hin, if_pos ⟨hrst, hne⟩]
  · have hill' := (legal_eq_false_iff p.cfg).2 hill
    rw [step_cons hin, if_neg fun hc => hc.2 (hsame hc.1)]
    split
    · exact exec_reset_illegal hill'
    · exact exec_tick_illegal hill' _
  · have hill' := (legal_eq_false_iff s.cfg).2 hill
    exact ⟨exec_reset_illegal hill', exec_tick_illegal hill'⟩
  · refine exec_tick_refused hlegal ?_ ?_ <;> rw [clocked_eq]
    · exact decide_eq_true hdue
    · exact h
  · exact fun hgt => bitPath_of_runLength_gt (s := { s with nextCenter := _ }) hgt
  · exact bitPath_of_no_row h5 ((reachesEngine_iff _ b).2 hds) hno
  · exact execDataBit_fault hk b

/-- A bit the clock takes never faults: a selected data bit has its byte in the buffer. -/
theorem bitPath_ne_fault (b : Bit) (s : State) (f : Fault) : bitPath b s ≠ .fault f := by
  intro hf
  by_cases h5 : s.runLength.toNat ≤ 5
  case neg =>
    rw [bitPath_of_runLength_gt (Nat.not_le.1 h5)] at hf
    cases hf
  cases hds : (dsOpOf s b).outcome.reachesEngine
  · rw [bitPath_of_kept h5 hds] at hf
    cases hf
  · by_cases hop : ∃ op : EngOp, mapCondition op s b
    · obtain ⟨op, hop⟩ := hop
      rw [bitPath_of_mapCondition h5 hds hop] at hf
      cases hf
    · rw [bitPath_of_no_row h5 hds (not_exists.1 hop)] at hf
      cases hf

/-- Settles O60: the table is total on single operations, and CLK_SAMPLE answers one of four equations of
the bit path, none of them a fault. -/
theorem nothingElseStops : Obligations.NothingElseStops := by
  intro s
  refine ⟨fun h => ⟨_, if_pos h⟩, fun i hi hd => ⟨_, exec_eq_opResult hi hd⟩,
    fun b => ⟨fun h5 hdone => ?_, fun f hf => ?_⟩⟩
  · cases hds : (dsOpOf s b).outcome.reachesEngine
    · exact ⟨_, bitPath_of_kept h5 hds⟩
    · obtain ⟨hact, hslot, hfive⟩ | ⟨op, hop⟩ := hdone
      · obtain h | h | h := (reachesEngine_iff s b).1 hds
        · simp [hact] at h
        · exact absurd h hslot
        · exact absurd hfive h
      · exact ⟨_, bitPath_of_mapCondition h5 hds hop⟩
  · exact bitPath_ne_fault b _ f hf

/-! ## Derived values, and the SOF -/

/-- Settles O22: the definitions of R45 and R15 unfolded; a period is a quotient of legal rates, so it is at
least 1. -/
theorem periodAndBitExtent : Obligations.PeriodAndBitExtent := by
  intro s tArb tData
  have hzero : s.cfg.dataBitRate = 0 ↔ s.cfg.dataBitRate.toNat = 0 := by
    rw [← BitVec.toNat_inj]; rfl
  have hperiod : s.period = if s.dataRate = true then tData else tArb := by
    simp only [State.period, Config.period, Config.tData, Config.tArb, hzero]
    rfl
  refine ⟨hperiod, fun hlegal => ?_, rfl, rfl⟩
  simp only [Config.legal, Bool.and_eq_true, decide_eq_true_eq] at hlegal
  obtain ⟨⟨⟨⟨harb, hle⟩, hdata⟩, -⟩, -⟩ := hlegal
  have hArb : 1 ≤ tArb := Nat.div_pos hle harb
  have hData : 1 ≤ tData := by
    show 1 ≤ if s.cfg.dataBitRate.toNat = 0 then tArb else _
    split_ifs with h0
    · exact hArb
    · exact Nat.div_pos hdata (Nat.pos_of_ne_zero h0)
  rw [hperiod]
  split_ifs <;> assumption

/-- Settles O41, over the sixteen codes of each frame type. -/
theorem byteCountOfEveryDlc : Obligations.ByteCountOfEveryDlc := by
  have hfd : ∀ dlc : BitVec 4, byteCount .fdData dlc =
      if dlc.toNat ≤ 8 then dlc.toNat else if dlc.toNat ≤ 12 then 4 * (dlc.toNat - 6)
      else 16 * (dlc.toNat - 11) := by decide
  intro s
  unfold State.byteCount
  refine ⟨fun h => ?_, fun h => ?_, fun h => ?_, byteCount_le _ _⟩ <;> rw [h]
  · rfl
  · rfl
  · exact hfd s.dlc

/-- Settles O31: IDLE_SOF writes every register that two such states may differ in. -/
theorem sofForgetsTheDiscardedFrame : Obligations.SofForgetsTheDiscardedFrame := by
  intro s u hcfg hinput hrec hidx hlevel hcenter hrate hprev hcount hcause hstate
  simp only [exec, execIdleSof, putMark, State.bitStart, State.period, hcfg, hinput, hrec, hidx,
    hlevel, hcenter, hrate, hprev, hcount, hcause, hstate]

end Sys2Proof.Machine
end

section
/-! PROOFS. The obligations of 20_memory.md: a step runs the operation its ports select (O8), a mark stands
at the sample of its tick (O55), and the identifier and a data byte are assembled most significant bit first
(O33, O40). -/

namespace Sys2Proof.Machine

/-! ## The step -/

theorem decode_hostSelector (p : PortIn) (s : State) :
    decode (hostSelector p s) = .ok (if p.rst then .reset else .tick p.raw) :=
  decode_hostWord ..

/-- Settles O8: the HOST word selects RESET or TICK by `rst` alone, and that is what a step runs. -/
theorem stepRunsTheDecodedOperation : Obligations.StepRunsTheDecodedOperation := by
  intro s p rest i hin hcfg hdec
  obtain rfl : (if p.rst then .reset else .tick p.raw) = i :=
    Except.ok.inj ((decode_hostSelector p s).symm.trans hdec)
  rw [step_cons hin, if_neg fun hc => hc.2 (hcfg hc.1)]

/-! ## The mark port across a tick -/

theorem inv_input {s : State} (h : Inv s) (input : List PortIn) : Inv { s with input := input } :=
  ⟨h.legal, h.slot, h.scope, h.run, h.rate, h.route, h.err, h.buf⟩

/-- What an operation may do to the mark port: leave it alone, or put out one mark at the centre of the bit
(20_memory.md R72). -/
def MarkStep (s t : State) : Prop :=
  t.markOut = s.markOut ∨ ∃ k, t.markOut = some ⟨k, s.sampleIdx⟩

/-- A mark that was not there before stands at the sample. -/
theorem MarkStep.sample_eq {s t : State} {m : Mark} (h : MarkStep s t) (hnone : s.markOut = none)
    (hm : t.markOut = some m) : m.sample = s.sampleIdx := by
  obtain hkeep | ⟨k, hput⟩ := h
  · rw [hkeep, hnone] at hm; cases hm
  · rw [hput] at hm; cases hm; rfl

/-- An operation on the same sample that starts from what another one left. -/
theorem MarkStep.trans {s u t : State} (hsu : MarkStep s u) (hidx : u.sampleIdx = s.sampleIdx)
    (hut : MarkStep u t) : MarkStep s t := by
  obtain hkeep | ⟨k, hput⟩ := hut
  · rwa [MarkStep, hkeep]
  · exact .inr ⟨k, hidx ▸ hput⟩

/-- Row by row of `opResult`: a row names the mark port once, or not at all. -/
theorem markStep_opResult (i : Instr) (s : State) : MarkStep s (opResult i s) := by
  generalize ht : opResult i s = t
  unfold MarkStep
  cases i <;>
    simp only [opResult, crcMark, bitMark, afterControl_eq, dataBitRouted_eq, dataBitCounted_eq] at ht <;>
    (repeat' split at ht) <;> subst ht <;> simp

theorem dsResult_sampleIdx (op : DsOp) (b : Bit) (s : State) :
    (opResult (op.instr b) s).sampleIdx = s.sampleIdx := by
  cases op <;> rfl

theorem markStep_bitPath {b : Bit} {s t : State} (h : bitPath b s = .next t) : MarkStep s t := by
  obtain ⟨-, rfl | ⟨op, -, -, rfl⟩⟩ := bitPath_cases h
  · exact markStep_opResult _ s
  · refine (markStep_opResult ((dsOpOf s b).instr b) s).trans (dsResult_sampleIdx _ b s) ?_
    have hengine := markStep_opResult (op.instr b) (fed b (opResult ((dsOpOf s b).instr b) s))
    rw [fed_eq] at hengine ⊢
    exact hengine

/-- While destuffing is inactive a bit goes to the engine as it is (42_destuffer.md R142). -/
theorem bitPath_of_inactive {b : Bit} {s t : State} (hds : s.dsActive = false)
    (h : bitPath b s = .next t) :
    ∃ op : EngOp, mapCondition op s b ∧ t = { opResult (op.instr b) (fed b s) with prevBit := b } := by
  have hop : dsOpOf s b = .direct := by simp [dsOpOf, hds]
  obtain ⟨h5, -⟩ := bitPath_cases h
  have hreach : (dsOpOf s b).outcome.reachesEngine = true := by rw [hop]; rfl
  by_cases hrow : ∃ op : EngOp, mapCondition op s b
  · obtain ⟨op, hrow⟩ := hrow
    rw [bitPath_of_mapCondition h5 hreach hrow, hop] at h
    exact ⟨op, hrow, (Host.Outcome.next.inj h).symm⟩
  · rw [bitPath_of_no_row h5 hreach (not_exists.1 hrow)] at h
    cases h

/-- A bit that leaves the engine in IDLE is IDLE_RECESSIVE's, which writes no output. -/
theorem bitPath_outputs_of_idle {b : Bit} {s t : State} (hinv : Inv s) (hs : s.state = .idle)
    (h : bitPath b s = .next t) (ht : t.state = .idle) :
    t.markOut = s.markOut ∧ t.recOut = s.recOut := by
  have hds : s.dsActive = false := by simpa [destufferScope, hs] using hinv.scope
  obtain ⟨op, hop, rfl⟩ := bitPath_of_inactive hds h
  cases op <;> simp only [mapCondition, hs, reduceCtorEq, false_and] at hop
  case idleRecessive => rw [fed_eq]; exact ⟨rfl, rfl⟩
  case idleSof => cases ht

/-- A bit in DECODER_ERROR is ERR_BIT's, which puts no mark out. -/
theorem bitPath_markOut_of_decoderError {b : Bit} {s t : State} (hinv : Inv s)
    (hs : s.state = .decoderError) (h : bitPath b s = .next t) : t.markOut = s.markOut := by
  have hds : s.dsActive = false := by simpa [destufferScope, hs] using hinv.scope
  obtain ⟨op, hop, rfl⟩ := bitPath_of_inactive hds h
  cases op <;> simp only [mapCondition, hs, reduceCtorEq, false_and] at hop
  case errBit =>
    rw [fed_eq]
    simp only [EngOp.instr, opResult]
    (repeat' split) <;> rfl

/-- Settles O55: a tick clears both ports before its bit, which puts out at most one mark, and that at the
tick's sample. -/
theorem marksStandAtTheirSample : Obligations.MarksStandAtTheirSample := by
  intro s t hinv hstep
  obtain ⟨p, rest, hin, -, ⟨-, -, rfl⟩ | ⟨hrst, -⟩⟩ := step_eq_next hstep
  · exact ⟨fun m hm => (Option.some_ne_none m hm.symm).elim, fun _ _ => ⟨rfl, rfl⟩, fun _ => rfl⟩
  obtain ⟨v, u, rfl, rfl | ⟨c, w, hw, rfl⟩⟩ := step_cases hin hrst hstep
  · simp [clocked_eq]
  · have hinv' : Inv { clocked v { s with input := rest } with nextCenter := c } :=
      inv_nextCenter (inv_clocked (inv_input hinv rest) v) c
    rw [clocked_eq] at hw hinv'
    exact ⟨fun m hm => (markStep_bitPath hw).sample_eq rfl hm,
      fun hs ht => bitPath_outputs_of_idle (t := w) hinv' hs hw ht,
      fun hs => bitPath_markOut_of_decoderError (t := w) hinv' hs hw⟩

/-! ## Bits shifted in one after another -/

theorem bitsMsbFirst_succ {v : Nat} (x : BitVec (v + 1)) :
    bitsMsbFirst x = x.msb :: bitsMsbFirst (x.setWidth v) := by
  simp only [bitsMsbFirst, List.range_succ_eq_map, List.map_cons, List.map_map, BitVec.msb,
    List.cons.injEq, true_and]
  refine List.map_congr_left fun k _ => ?_
  simp [show k + (v + 1) - v = k + 1 by omega]

/-- The bits of `x`, most significant first, shifted into `r`: `x` stands behind `r` (20_memory.md R61). -/
theorem foldl_shiftIn_bitsMsbFirst {w v : Nat} (hw : 0 < w) (r : BitVec w) (x : BitVec v) :
    (bitsMsbFirst x).foldl (shiftIn (BitVec.ofNat w (2 ^ w - 1))) r =
      BitVec.ofNat w (2 ^ v * r.toNat + x.toNat) := by
  induction v generalizing r with
  | zero => simp [bitsMsbFirst, BitVec.eq_nil x]
  | succ v ih =>
    have hx : x.toNat = 2 ^ v * x.msb.toNat + (x.setWidth v).toNat := by
      conv_lhs => rw [← BitVec.cons_msb_setWidth x, BitVec.toNat_cons', Nat.shiftLeft_eq, Nat.mul_comm]
    rw [bitsMsbFirst_succ, List.foldl_cons, ih, shiftIn_toNat w le_rfl hw, hx]
    apply BitVec.eq_of_toNat_eq
    rw [BitVec.toNat_ofNat, BitVec.toNat_ofNat, ← Nat.ModEq, pow_succ, Nat.mul_assoc, ← Nat.add_assoc,
      ← Nat.mul_add]
    exact ((Nat.mod_modEq _ _).mul_left _).add_right _

/-! ## The identifier -/

/-- The bits of an identifier field, each at its own time, are shifted in and counted. -/
theorem execBitsAt_identifierBits {op : Bit → Instr}
    (hop : ∀ b s, exec (op b) s = .next (identifierBit b s)) (bits : List (Between × Bit)) (s : State) :
    ∃ t, execBitsAt op bits s = .next t ∧
      t.identifier = (bits.map Prod.snd).foldl (shiftIn 0x1FFFFFFF) s.identifier ∧
      t.fieldIdx = s.fieldIdx + BitVec.ofNat 10 bits.length := by
  induction bits generalizing s with
  | nil => exact ⟨s, rfl, rfl, by simp⟩
  | cons gb bits ih =>
    obtain ⟨g, b⟩ := gb
    obtain ⟨t, ht, hid, hidx⟩ := ih (identifierBit b (g.apply s))
    refine ⟨t, (execBitsAt_cons g (hop b _)).trans ht, hid, hidx.trans ?_⟩
    show s.fieldIdx + 1 + _ = _
    rw [List.length_cons, BitVec.add_assoc, Nat.add_comm, BitVec.ofNat_add]
    rfl

@[simp] theorem length_bitsMsbFirst {w : Nat} (x : BitVec w) : (bitsMsbFirst x).length = w := by
  simp [bitsMsbFirst]

/-- The bits of `x` taken by an identifier operation: `x` stands behind what was there. -/
theorem execBitsAt_identifierField {op : Bit → Instr}
    (hop : ∀ b s, exec (op b) s = .next (identifierBit b s)) {w : Nat} (x : BitVec w)
    {times : List Between} (hlen : times.length = w) (s : State) :
    ∃ t, execBitsAt op (times.zip (bitsMsbFirst x)) s = .next t ∧
      t.identifier = BitVec.ofNat 29 (2 ^ w * s.identifier.toNat + x.toNat) ∧
      t.fieldIdx = s.fieldIdx + BitVec.ofNat 10 w := by
  obtain ⟨t, ht, hid, hidx⟩ := execBitsAt_identifierBits hop (times.zip (bitsMsbFirst x)) s
  rw [List.map_snd_zip (by simp [hlen])] at hid
  exact ⟨t, ht, hid.trans (foldl_shiftIn_bitsMsbFirst (by decide) _ x), by simpa [hlen] using hidx⟩

/-- Settles O33: ID_A is shifted into 0 and ID_B behind it; ID_RTR_SRR and ID_IDE leave the identifier
alone. -/
theorem identifierIsAssembledMsbFirst : Obligations.IdentifierIsAssembledMsbFirst := by
  intro a x srr s atA atX atSrr atIde hid hidx hA hX
  obtain ⟨t1, ht1, hid1, hidx1⟩ := execBitsAt_identifierField (op := .idBit) (fun _ _ => rfl) a hA s
  obtain ⟨t4, ht4, hid4, hidx4⟩ := execBitsAt_identifierField (op := .idExtBit) (fun _ _ => rfl) x hX
    (opResult (.idIde true) (atIde.apply (opResult (.idRtrSrr srr) (atSrr.apply t1))))
  have hid1' : t1.identifier = a.setWidth 29 := by
    rw [hid1, hid]
    exact BitVec.eq_of_toNat_eq (by simp)
  refine ⟨t1, _, _, t4, ht1, hid1', by simpa [hidx] using hidx1, rfl, rfl, ht4, ?_, hidx4⟩
  have hid4' : t4.identifier = BitVec.ofNat 29 (2 ^ 18 * t1.identifier.toNat + x.toNat) := hid4
  have ha := a.isLt
  have hx := x.isLt
  rw [hid4', hid1']
  apply BitVec.eq_of_toNat_eq
  rw [BitVec.toNat_append, ← Nat.shiftLeft_add_eq_or_of_lt hx, Nat.shiftLeft_eq, BitVec.toNat_ofNat,
    BitVec.toNat_setWidth]
  omega

/-! ## A data byte -/

theorem memRead_memWrite_same {m : List Host.Cell} (h : Memory.wf m = true) (k : Nat) (v : Byte) :
    memRead (memWrite m k v) k = v :=
  (memRead_memWrite h k k v).trans (if_pos rfl)

/-- `t` is `s` with `n` bits of byte `k` taken, which hold `v` so far. -/
structure TakesByte (s : State) (k n : Nat) (v : Byte) (t : State) : Prop where
  slot : t.fieldIdx.toNat = 8 * k + n
  wf : Memory.wf t.buf = true
  byte : t.bufRead k = v
  start : t.fieldStart = s.fieldStart
  period : t.period = s.period
  bytes : t.byteCount = s.byteCount

section
variable {s t : State} {k n : Nat} {v : Byte} (hk : k < s.byteCount) (h : TakesByte s k n v t)
  (g : Between) (b : Bit)
include hk h

/-- DATA_BIT then works on byte `k`, which the buffer has. -/
theorem exec_dataBit_of_takesByte (hn : n ≤ 7) :
    exec (.dataBit b) (g.apply t) = .next (dataBitRouted (dataBitCounted k b
      { g.apply t with buf := memWrite t.buf k (shiftIn 0xFF v b) })) := by
  obtain ⟨slot, -, rfl, -⟩ := h
  have h64 : s.byteCount ≤ 64 := byteCount_le ..
  have hdiv : t.fieldIdx.toNat / 8 = k := by omega
  have heq := execDataBit_eq b (g.apply t) (by rw [Between.apply_fieldIdx]; omega)
  rwa [Between.apply_fieldIdx, hdiv] at heq

/-- A bit before the last of its byte is shifted in and counted. -/
theorem takesByte_succ (hn : n < 7) :
    ∃ t', exec (.dataBit b) (g.apply t) = .next t' ∧ TakesByte s k (n + 1) (shiftIn 0xFF v b) t' := by
  refine ⟨_, exec_dataBit_of_takesByte hk h g b hn.le, ?_⟩
  obtain ⟨slot, wf, rfl, start, period, bytes⟩ := h
  have h64 : s.byteCount ≤ 64 := byteCount_le ..
  have hsucc : (t.fieldIdx + 1).toNat = 8 * k + (n + 1) := by bv_omega
  have hopen : ¬ (t.fieldIdx + 1).toNat % 8 = 0 := by omega
  have hstay : ¬ (t.fieldIdx + 1).toNat = 8 * t.byteCount := by omega
  rw [dataBitRouted_eq, dataBitCounted_eq]
  exact ⟨(congrArg BitVec.toNat (if_neg hstay)).trans hsucc,
    Memory.wf_memWrite wf _ (by unfold bufSize; omega), memRead_memWrite_same wf k _,
    (if_neg hopen).trans start, period, bytes⟩

/-- The last bit of the byte completes it and puts its record out. -/
theorem dataRecord_of_takesByte (hn : n = 7) :
    ∃ t', exec (.dataBit b) (g.apply t) = .next t' ∧ t'.bufRead k = shiftIn 0xFF v b ∧
      t'.recOut = some ⟨.data, (shiftIn 0xFF v b).setWidth 32, BitVec.ofNat 32 k, s.fieldStart,
        (g.sampleIdx : Int) - half s.period + s.period⟩ ∧
      t'.fieldStart = (g.sampleIdx : Int) - half s.period + s.period := by
  refine ⟨_, exec_dataBit_of_takesByte hk h g b hn.le, ?_⟩
  obtain ⟨slot, wf, rfl, start, period, bytes⟩ := h
  have h64 : s.byteCount ≤ 64 := byteCount_le ..
  have hlast : (t.fieldIdx + 1).toNat % 8 = 0 := by bv_omega
  rw [dataBitRouted_eq, dataBitCounted_eq, ← start, ← period, ← Between.apply_bitEnd]
  refine ⟨memRead_memWrite_same wf k _, (if_pos hlast).trans ?_, if_pos hlast⟩
  rw [State.bufRead, memRead_memWrite_same wf]
  rfl

end

/-- The bits before the last of a byte, each at its own time. -/
theorem execBitsAt_takesByte {s t : State} {k n : Nat} {v : Byte} {bits : List (Between × Bit)}
    (hk : k < s.byteCount) (h : TakesByte s k n v t) (hn : n + bits.length ≤ 7) :
    ∃ t', execBitsAt .dataBit bits t = .next t' ∧
      TakesByte s k (n + bits.length) ((bits.map Prod.snd).foldl (shiftIn 0xFF) v) t' := by
  induction bits generalizing n v t with
  | nil => exact ⟨t, rfl, h⟩
  | cons gb bits ih =>
    obtain ⟨g, b⟩ := gb
    rw [List.length_cons, Nat.add_comm _ 1, ← Nat.add_assoc] at hn ⊢
    obtain ⟨u, hu, h'⟩ := takesByte_succ hk h g b (by omega)
    obtain ⟨t', ht', h''⟩ := ih h' hn
    exact ⟨t', (execBitsAt_cons g hu).trans ht', h''⟩

/-- Settles O40: seven bits are shifted in and counted, and the eighth completes the byte and its record. -/
theorem dataByteIsAssembledAndReported : Obligations.DataByteIsAssembledAndReported := by
  intro x k s before last hk hslot hwf hzero hlen lastEnd
  have hbits : bitsMsbFirst x = (List.range 7).map x.getMsbD ++ [x.getMsbD 7] := rfl
  have hbyte : (bitsMsbFirst x).foldl (shiftIn 0xFF) 0 = x :=
    (foldl_shiftIn_bitsMsbFirst (by decide) 0 x).trans (by simp)
  have hnone : TakesByte s k 0 0 s := ⟨hslot, hwf, hzero, rfl, rfl, rfl⟩
  obtain ⟨u, hu, hseven⟩ := execBitsAt_takesByte (bits := before.zip ((List.range 7).map x.getMsbD))
    hk hnone (by simp [hlen])
  obtain ⟨t, ht, hread, hrec, hstart⟩ :=
    dataRecord_of_takesByte hk hseven last (x.getMsbD 7) (by simp [hlen])
  rw [List.map_snd_zip (by simp [hlen]), ← List.foldl_concat (shiftIn 0xFF), ← hbits, hbyte]
    at hread hrec
  refine ⟨t, ?_, hread, hrec, hstart⟩
  rw [hbits, List.zip_append (by simp [hlen]), execBitsAt_append hu]
  exact execBitsAt_cons last ht

end Sys2Proof.Machine
end

section
/-! PROOFS. The obligations of 30_encoding.md: the encoder and the decoder are inverse to each other (O2,
O3), the registers select the rows of the map (O4, O6, O7), and the words and codes written out (O1). -/

namespace Sys2Proof.Machine

/-! ## A word laid out from a row

A row's match sets no bit outside its mask, so the word laid out from it matches, whatever the free bits
are, and a word that matches is laid out again from its own free bits. -/

/-- A match and the free bits outside the mask: under the mask the match is left. -/
theorem or_and_of_free {n : Nat} {pat mask free : BitVec n} (hp : pat &&& mask = pat)
    (hf : free &&& mask = 0) : (pat ||| free) &&& mask = pat := by
  rw [BitVec.and_comm, BitVec.and_or_distrib_left, BitVec.and_comm, hp, BitVec.and_comm, hf]
  simp

theorem and_not_and_self {n : Nat} (x mask : BitVec n) : x &&& ~~~mask &&& mask = 0 := by
  rw [BitVec.and_assoc, BitVec.and_comm (~~~mask)]
  simp

/-- A word is its part under a mask and its part outside. -/
theorem and_or_and_not {n : Nat} (w mask : BitVec n) : w &&& mask ||| (w &&& ~~~mask) = w := by
  rw [← BitVec.and_or_distrib_left]
  simp

theorem wordMatches_iff {n : Nat} {w pat mask : BitVec n} :
    wordMatches w pat mask = true ↔ w &&& mask = pat := beq_iff_eq

theorem wordMatches_encodeNibble {pat mask : BitVec 4} (hp : pat &&& mask = pat) (free : BitVec 4) :
    wordMatches (encodeNibble pat mask free) pat mask = true :=
  wordMatches_iff.2 (or_and_of_free hp (and_not_and_self ..))

theorem encodeNibble_of_wordMatches {w pat mask : BitVec 4} (h : wordMatches w pat mask = true) :
    encodeNibble pat mask w = w := by
  rw [encodeNibble, ← wordMatches_iff.1 h, and_or_and_not]

/-- The free bits of an ENG word in one: the bit in bit 0, `free` in the others. -/
theorem encodeOctet_eq (pat mask free : BitVec 8) (b : Bit) :
    encodeOctet pat mask free b = pat ||| ((free &&& 0xFE ||| bitAs 8 b) &&& ~~~mask) := by
  rw [encodeOctet, BitVec.and_or_distrib_right, BitVec.or_assoc, BitVec.and_assoc free (~~~mask),
    BitVec.and_comm (~~~mask), ← BitVec.and_assoc free]

theorem wordMatches_encodeOctet {pat mask : BitVec 8} (hp : pat &&& mask = pat) (free : BitVec 8)
    (b : Bit) : wordMatches (encodeOctet pat mask free b) pat mask = true := by
  rw [encodeOctet_eq]
  exact wordMatches_iff.2 (or_and_of_free hp (and_not_and_self ..))

theorem and_bitAs_getLsbD (w : BitVec 8) : w &&& 0xFE ||| bitAs 8 (w.getLsbD 0) = w := by
  revert w; decide

theorem encodeOctet_of_wordMatches {w pat mask : BitVec 8} (h : wordMatches w pat mask = true) :
    encodeOctet pat mask w (w.getLsbD 0) = w := by
  rw [encodeOctet_eq, and_bitAs_getLsbD, ← wordMatches_iff.1 h, and_or_and_not]

/-- A row that fixes bit 0 lays out the same word for either bit. -/
theorem encodeOctet_of_fixed_bit {mask : BitVec 8} (hm : mask.getLsbD 0 = true) (pat free : BitVec 8)
    (b b' : Bit) : encodeOctet pat mask free b = encodeOctet pat mask free b' := by
  have hbit : ∀ c : Bit, bitAs 8 c &&& ~~~mask = 0 := by
    revert mask; decide
  simp only [encodeOctet, hbit]

theorem encodeOctet_of_wordMatches_of_fixed_bit {w pat mask : BitVec 8} (hm : mask.getLsbD 0 = true)
    (h : wordMatches w pat mask = true) (b : Bit) : encodeOctet pat mask w b = w :=
  (encodeOctet_of_fixed_bit hm ..).trans (encodeOctet_of_wordMatches h)

/-- Bit 0 of the word is the operand, if the operand is the bit of a row that fixes bit 0. -/
theorem encodeOctet_getLsbD_zero {pat mask : BitVec 8} {b : Bit} (hp : pat &&& mask = pat)
    (hb : mask.getLsbD 0 = true → b = pat.getLsbD 0) (free : BitVec 8) :
    (encodeOctet pat mask free b).getLsbD 0 = b := by
  have hword : (encodeOctet pat mask free b).getLsbD 0 =
      (pat.getLsbD 0 || (b && !mask.getLsbD 0)) := by
    cases b <;> simp [encodeOctet, bitAs]
  have hpat : (pat.getLsbD 0 && mask.getLsbD 0) = pat.getLsbD 0 := by
    rw [← BitVec.getLsbD_and, hp]
  cases hm : mask.getLsbD 0 <;> simp_all

/-! ## The rows as micro-operations -/

theorem eq_engInstr {i : Instr} {op : EngOp} {b : Bit} (h : i.engOp? = some (op, b)) :
    i = op.instr b := by
  cases i <;> cases h <;> rfl

theorem eq_dsInstr {i : Instr} {op : DsOp} {b : Bit} (h : i.dsOp? = some (op, b)) :
    i = op.instr b := by
  cases i <;> cases h <;> rfl

@[simp] theorem engInstr_engOp? (op : EngOp) (b : Bit) : (op.instr b).engOp? = some (op, b) := by
  cases op <;> rfl

theorem engInstr_inj {op op' : EngOp} {b b' : Bit} (h : op.instr b = op'.instr b') :
    op = op' ∧ b = b' := by
  simpa using congrArg Instr.engOp? h

theorem encodeAt_engInstr (op : EngOp) (b : Bit) (slot : Slot) :
    encodeAt (op.instr b) slot = encodeEng op b slot := by
  cases op <;> rfl

theorem encodeAt_dsInstr (op : DsOp) (b : Bit) (slot : Slot) :
    encodeAt (op.instr b) slot = encodeDs op b slot := by
  cases op <;> rfl

theorem admits_engInstr (op : EngOp) (b : Bit) (slot : Slot) :
    admits (op.instr b) slot = engAdmits op b slot := by
  simp [admits]

theorem admits_dsInstr (op : DsOp) (b : Bit) (slot : Slot) : admits (op.instr b) slot = true := by
  cases op <;> rfl

/-- An engine row that fixes bit 0 admits that bit only, every other row both. -/
theorem wellFormed_engInstr_iff (op : EngOp) (b : Bit) :
    WellFormed (op.instr b) ↔ ((engRow op).mask.getLsbD 0 = true → b = (engRow op).pat.getLsbD 0) := by
  cases op <;> cases b <;> decide

theorem wellFormed_dsInstr (op : DsOp) (b : Bit) : WellFormed (op.instr b) := by
  cases op <;> rfl

theorem engRow_pat_and_mask (op : EngOp) : (engRow op).pat &&& (engRow op).mask = (engRow op).pat := by
  cases op <;> rfl

theorem dsRow_pat_and_mask (op : DsOp) : (dsRow op).pat &&& (dsRow op).mask = (dsRow op).pat := by
  cases op <;> rfl

/-! ## What each format decodes to -/

/-- A destuffer row that applies is the one decoded: no two of them overlap. -/
theorem decodeDs_eq_some_iff {op : DsOp} {w : BitVec 4} : decodeDs w = some op ↔ dsApplies op w = true := by
  revert w; cases op <;> decide

theorem decode_eng_eq_ok_iff {w : BitVec 8} {idx : BitVec 10} {dlc : BitVec 4} {i : Instr} :
    decode (.eng w idx dlc) = .ok i ↔
      ∃ op : EngOp, engApplies op w idx dlc = true ∧ op.instr (w.getLsbD 0) = i := by
  simp only [← decodeEng_eq_some_iff, decode]
  cases decodeEng w idx dlc with
  | some op => simp
  | none => dsimp only; split <;> simp

theorem decode_ds_eq_ok_iff {w : BitVec 4} {b : Bit} {i : Instr} :
    decode (.ds w b) = .ok i ↔ ∃ op : DsOp, dsApplies op w = true ∧ op.instr b = i := by
  simp only [← decodeDs_eq_some_iff, decode]
  cases decodeDs w <;> simp

theorem decode_host_eq_ok_iff {w : BitVec 4} {raw : Bit} {i : Instr} :
    decode (.host w raw) = .ok i ↔
      wordMatches w 0b1000 0b1000 = true ∧ .reset = i ∨
      wordMatches w 0b0000 0b1000 = true ∧ .tick raw = i := by
  have hbit : wordMatches w 0b0000 0b1000 = !wordMatches w 0b1000 0b1000 := by
    revert w; decide
  rw [hbit, decode, hbit]
  cases wordMatches w 0b1000 0b1000 <;> simp

theorem decode_edge_eq_ok_iff {w : BitVec 4} {i : Instr} :
    decode (.edge w) = .ok i ↔ wordMatches w 0b0100 0b1100 = true ∧ .clkResync = i := by
  rw [decode]
  split <;> simp_all

theorem decode_due_eq_ok_iff {w : BitVec 4} {v : Bit} {i : Instr} :
    decode (.due w v) = .ok i ↔ wordMatches w 0b0010 0b1010 = true ∧ .clkSample v = i := by
  rw [decode]
  split <;> simp_all

theorem slots_one_holds (w : BitVec 8) (idx : BitVec 10) (dlc : BitVec 4) :
    (SlotCond.slots 1 1).holds w idx dlc = (idx == 0) := by
  rw [Bool.eq_iff_iff, beq_iff_eq, ← BitVec.toNat_inj]
  simp [SlotCond.holds]

/-- The two switch rows: their words differ in the state, so neither hides the other. -/
theorem decode_rate_eq_ok_iff {w : BitVec 8} {idx : BitVec 10} {i : Instr} :
    decode (.rate w idx) = .ok i ↔
      (wordMatches w 0x49 0xFD = true ∧ idx = 0) ∧ .clkSwitchUp = i ∨
      wordMatches w 0xA3 0xF3 = true ∧ .clkSwitchDown = i := by
  have hdisjoint : wordMatches w 0x49 0xFD = true → wordMatches w 0xA3 0xF3 = false := fun h =>
    beq_eq_false_iff_ne.2 (masks_disjoint (by decide) (wordMatches_iff.1 h))
  rw [decode, slots_one_holds]
  split_ifs <;> simp_all

/-! ## Encoding, then decoding -/

theorem decode_encodeEng {op : EngOp} {b : Bit} {slot : Slot} (hwf : WellFormed (op.instr b))
    (hadm : engAdmits op b slot = true) : decode (encodeEng op b slot) = .ok (op.instr b) := by
  have hpat := engRow_pat_and_mask op
  have happ : engApplies op (encodeOctet (engRow op).pat (engRow op).mask slot.octet b)
      slot.fieldIdx slot.dlc = true := by
    simp only [engApplies, wordMatches_encodeOctet hpat, Bool.true_and]
    exact hadm
  refine decode_eng_eq_ok_iff.2 ⟨op, happ, ?_⟩
  rw [encodeOctet_getLsbD_zero hpat ((wellFormed_engInstr_iff op b).1 hwf)]

theorem decode_encodeDs (op : DsOp) (b : Bit) (slot : Slot) :
    decode (encodeDs op b slot) = .ok (op.instr b) :=
  decode_ds_eq_ok_iff.2 ⟨op, wordMatches_encodeNibble (dsRow_pat_and_mask op) _, rfl⟩

/-- The rows of the HOST and CALL formats and the two switch rows. -/
theorem decode_encodeAt_of_not_bit_row {i : Instr} {slot : Slot} (heng : i.engOp? = none)
    (hds : i.dsOp? = none) (hadm : admits i slot = true) : decode (encodeAt i slot) = .ok i := by
  cases i with
  | reset => exact decode_host_eq_ok_iff.2 (.inl ⟨wordMatches_encodeNibble rfl _, rfl⟩)
  | tick raw => exact decode_host_eq_ok_iff.2 (.inr ⟨wordMatches_encodeNibble rfl _, rfl⟩)
  | clkResync => exact decode_edge_eq_ok_iff.2 ⟨wordMatches_encodeNibble rfl _, rfl⟩
  | clkSample v => exact decode_due_eq_ok_iff.2 ⟨wordMatches_encodeNibble rfl _, rfl⟩
  | clkSwitchUp =>
    have hidx : slot.fieldIdx = 0 := beq_iff_eq.1 hadm
    exact decode_rate_eq_ok_iff.2 (.inl ⟨⟨wordMatches_encodeOctet rfl _ _, hidx⟩, rfl⟩)
  | clkSwitchDown => exact decode_rate_eq_ok_iff.2 (.inr ⟨wordMatches_encodeOctet rfl _ _, rfl⟩)
  | crc15Step b | crc17Step b | crc21Step b => rfl
  | dsDirect b | dsForced b | dsStuff b | dsStuffError b | dsPassSame b | dsPassToggle b => cases hds
  | _ b => cases heng

/-- Settles O2: the word laid out from a row matches it, and no other row of its format applies. -/
theorem encodeThenDecodeInEverySlot : Obligations.EncodeThenDecodeInEverySlot := by
  intro i slot hwf hadm
  cases heng : i.engOp? with
  | some row =>
    obtain rfl := eq_engInstr heng
    rw [encodeAt_engInstr]
    exact decode_encodeEng hwf (admits_engInstr .. ▸ hadm)
  | none =>
    cases hds : i.dsOp? with
    | some row =>
      obtain rfl := eq_dsInstr hds
      rw [encodeAt_dsInstr]
      exact decode_encodeDs ..
    | none => exact decode_encodeAt_of_not_bit_row heng hds hadm

/-! ## Decoding, then encoding -/

/-- The slot of an ENG selector is the selector itself. -/
theorem encodeEng_of_engApplies {op : EngOp} {w : BitVec 8} {idx : BitVec 10} {dlc : BitVec 4}
    (h : engApplies op w idx dlc = true) (nibble : BitVec 4) :
    WellFormed (op.instr (w.getLsbD 0)) ∧
      engAdmits op (w.getLsbD 0) ⟨nibble, w, idx, dlc⟩ = true ∧
      encodeEng op (w.getLsbD 0) ⟨nibble, w, idx, dlc⟩ = .eng w idx dlc := by
  obtain ⟨hmatch, hcond⟩ := (Bool.and_eq_true ..).mp h
  have hword := encodeOctet_of_wordMatches hmatch
  refine ⟨(wellFormed_engInstr_iff ..).2 fun hmask => ?_, ?_, ?_⟩
  · rw [← wordMatches_iff.1 hmatch, BitVec.getLsbD_and, hmask, Bool.and_true]
  · rw [engAdmits, hword]
    exact hcond
  · rw [encodeEng, hword]

/-- Settles O3: the slot is read off the selector, and the row that applied lays the word out again. -/
theorem decodedSelectorIsAnEncoding : Obligations.DecodedSelectorIsAnEncoding := by
  intro sel i hdec
  cases sel with
  | host w raw =>
    have hraw : (bitAs 8 raw).getLsbD 0 = raw := by cases raw <;> rfl
    refine ⟨⟨w, bitAs 8 raw, 0, 0⟩, ?_⟩
    rcases decode_host_eq_ok_iff.1 hdec with ⟨hmatch, rfl⟩ | ⟨hmatch, rfl⟩
    · exact ⟨rfl, rfl, by rw [encodeAt, encodeNibble_of_wordMatches hmatch, hraw]⟩
    · exact ⟨rfl, rfl, by rw [encodeAt, encodeNibble_of_wordMatches hmatch]⟩
  | edge w =>
    obtain ⟨hmatch, rfl⟩ := decode_edge_eq_ok_iff.1 hdec
    exact ⟨⟨w, 0, 0, 0⟩, rfl, rfl, by rw [encodeAt, encodeNibble_of_wordMatches hmatch]⟩
  | due w v =>
    obtain ⟨hmatch, rfl⟩ := decode_due_eq_ok_iff.1 hdec
    exact ⟨⟨w, 0, 0, 0⟩, rfl, rfl, by rw [encodeAt, encodeNibble_of_wordMatches hmatch]⟩
  | ds w b =>
    obtain ⟨op, hmatch, rfl⟩ := decode_ds_eq_ok_iff.1 hdec
    refine ⟨⟨w, 0, 0, 0⟩, wellFormed_dsInstr .., admits_dsInstr .., ?_⟩
    rw [encodeAt_dsInstr, encodeDs, encodeNibble_of_wordMatches hmatch]
  | eng w idx dlc =>
    obtain ⟨op, happ, rfl⟩ := decode_eng_eq_ok_iff.1 hdec
    refine ⟨⟨0, w, idx, dlc⟩, ?_⟩
    rw [admits_engInstr, encodeAt_engInstr]
    exact encodeEng_of_engApplies happ 0
  | rate w idx =>
    refine ⟨⟨0, w, idx, 0⟩, ?_⟩
    rcases decode_rate_eq_ok_iff.1 hdec with ⟨⟨hmatch, rfl⟩, rfl⟩ | ⟨hmatch, rfl⟩
    · exact ⟨rfl, rfl, by rw [encodeAt, encodeOctet_of_wordMatches_of_fixed_bit rfl hmatch]⟩
    · exact ⟨rfl, rfl, by rw [encodeAt, encodeOctet_of_wordMatches_of_fixed_bit rfl hmatch]⟩
  | call e b =>
    obtain rfl : e.instr b = i := Except.ok.inj hdec
    exact ⟨⟨0, 0, 0, 0⟩, by cases e <;> exact ⟨rfl, rfl, rfl⟩⟩

/-! ## What the registers select -/

/-- Settles O4: rst, edge and due are the bits of the HOST word, and due is read after CLK_RESYNC. -/
theorem hostRowsFollowResetEdgeAndDue : Obligations.HostRowsFollowResetEdgeAndDue := by
  intro p s v center
  have hedge : isEdge s v = true ↔ v ≠ s.prevLevel := bne_iff_ne
  have hdue : isDue (afterResync v s) = true ↔ center ≤ (s.sampleIdx : Int) := by
    by_cases hv : v = s.prevLevel <;> simp [isDue, afterResync, isEdge, resync, half, center, hv]
  have hword : hostWordOf p s = hostWord p.rst (isEdge s v) (isDue (afterResync v s)) := rfl
  refine ⟨decode_hostSelector p s, ?_, ?_⟩
  · rw [← hedge, hword, decode_edge_hostWord]
    cases p.rst <;> simp
  · rw [← hdue, hword, decode_due_hostWord]
    cases p.rst <;> simp

theorem engWord_bit (s : State) (b : Bit) : (engWord s b).getLsbD 0 = b := engWordOf_bit ..

theorem decode_engSelector_eq_ok_iff {s : State} {b : Bit} {op : EngOp} :
    decode (engSelector s b) = .ok (op.instr b) ↔ mapCondition op s b := by
  rw [← engOpOf_eq_some_iff, engOpOf, ← decodeEng_state, decodeEng_eq_some_iff, engSelector,
    decode_eng_eq_ok_iff, engWord_bit]
  constructor
  · rintro ⟨op', happ, heq⟩
    exact (engInstr_inj heq).1 ▸ happ
  · exact fun happ => ⟨op, happ, rfl⟩

/-- The word of CLK_SWITCH_UP: a recessive bit of an FD frame after r0, at either rate. -/
theorem wordMatches_switchUp_iff (st : EngState) (ft : FrameType) (dr b : Bit) :
    wordMatches (engWordOf st ft dr b) 0x49 0xFD = true ↔
      st = .controlAfterR0 ∧ ft = .fdData ∧ b = true := by
  cases st <;> cases ft <;> cases dr <;> cases b <;> decide

/-- The word of CLK_SWITCH_DOWN: a recessive CRC delimiter at the data rate, in any frame type. -/
theorem wordMatches_switchDown_iff (st : EngState) (ft : FrameType) (dr b : Bit) :
    wordMatches (engWordOf st ft dr b) 0xA3 0xF3 = true ↔ st = .crcdel ∧ b = true ∧ dr = true := by
  cases st <;> cases ft <;> cases dr <;> cases b <;> decide

/-- Settles O6: the row tables select by the map, and the switch words by the fields they pack. -/
theorem engineSelectionFollowsTheMap : Obligations.EngineSelectionFollowsTheMap := by
  intro s b
  have hidx : s.fieldIdx = 0 ↔ s.fieldIdx.toNat + 1 = 1 := by
    simp [← BitVec.toNat_inj]
  refine ⟨fun op => decode_engSelector_eq_ok_iff, ?_, ?_⟩
  · rw [rateSelector, decode_rate_eq_ok_iff, engWord_eq, wordMatches_switchUp_iff, hidx]
    simp only [mapCondition]
    grind
  · rw [rateSelector, decode_rate_eq_ok_iff, engWord_eq, wordMatches_switchDown_iff]
    simp [mapCondition]

/-- Settles O7: the map is the graph of the engine's selection, which has a row under the invariant. -/
theorem exactlyOneEngineRowPerBit : Obligations.ExactlyOneEngineRowPerBit := by
  intro s b hinv
  obtain ⟨op, hop⟩ := exists_mapCondition hinv b
  refine ⟨op, hop, fun op' hop' => Option.some.inj ?_⟩
  rw [← engOpOf_eq_some_iff.2 hop', engOpOf_eq_some_iff.2 hop]

/-! ## Words and codes written out -/

/-- Settles O1: the decoder and the code tables evaluated at the spec's numbers. -/
theorem writtenSelectorWordsDecode : Obligations.WrittenSelectorWordsDecode := by
  unfold Obligations.WrittenSelectorWordsDecode
  decide

end Sys2Proof.Machine
end

section
/-! PROOFS. The obligations of 40_datapath.md: the tick composes the clock stage and the bit path (O10, O11,
O14), CLK_SAMPLE runs the operations the registers select and completes under the invariant (O12, O13, O28),
and no step reads an output port (O56). -/

namespace Sys2Proof.Machine

/-! ## The bit path inside CLK_SAMPLE -/

/-- The state in which CLK_SAMPLE runs the bit path: the centre one period on (47_bit_clock.md R211). -/
def centred (s : State) : State := { s with nextCenter := (s.sampleIdx : Int) + s.period }

theorem exec_clkSample_eq (v : Bit) (s : State) : exec (.clkSample v) s = bitPath v (centred s) := rfl

theorem inv_centred {s : State} (h : Inv s) : Inv (centred s) := inv_nextCenter h _

/-- `prevBit` is the bit, whatever the outcome (40_datapath.md R122). -/
theorem bitPath_prevBit {b : Bit} {s t : State} (h : bitPath b s = .next t) : t.prevBit = b := by
  obtain ⟨-, -, -, -, -, rfl⟩ := bitPath_eq_next h
  rfl

/-- Settles O13: the bit path completes under the invariant, and moves no port, sample index or level. -/
theorem clkSampleCompletesUnderTheInvariant : Obligations.ClkSampleCompletesUnderTheInvariant := by
  intro v s hinv
  obtain ⟨t, ht, -⟩ := bitPath_keeps_inv (inv_centred hinv) v
  obtain ⟨hcfg, hinput, hidx, hlevel⟩ := bitPath_ports ht
  exact ⟨t, ht, bitPath_prevBit ht, hidx, hlevel, hcfg, hinput⟩

/-! ## The selected operations -/

theorem decode_dsSelector (s : State) (b : Bit) :
    decode (dsSelector s b) = .ok ((dsOpOf s b).instr b) := by
  rw [dsSelector, decode, decodeDs_state]
  rfl

/-- The destuffer keeps a bit from the engine in two of its operations (40_datapath.md R122). -/
theorem not_reachesEngine_iff (op : DsOp) :
    op.outcome.reachesEngine = false ↔ op = .stuff ∨ op = .stuffError := by
  cases op <;> decide

/-- The six fed states of 43_engine_header.md R148. -/
theorem feedsCrc15_iff (st : EngState) : feedsCrc15 st = true ↔
    st ∈ [.identifier, .controlBase, .controlExtended, .controlAfterR0, .data, .crc15] := by
  cases st <;> decide

/-- The engine step of a bit whose ENG word decodes is the decoded operation, CRC-15 fed before it. -/
theorem engineStep_of_decode {b : Bit} {s : State} {i : Instr} (h : decode (engSelector s b) = .ok i) :
    engineStep b s = exec i (fed b s) := by
  obtain ⟨op, -, rfl⟩ := decode_eng_eq_ok_iff.1 h
  rw [engWord_bit] at h ⊢
  rw [engineStep_eq, engOpOf_eq_some_iff.2 (decode_engSelector_eq_ok_iff.1 h)]
  exact runEng_eq_exec op b _

/-- A bit the destuffer hands on leaves what the decoded engine operation leaves. -/
theorem bitPath_of_decode {b : Bit} {s t : State} {i : Instr} (h5 : s.runLength.toNat ≤ 5)
    (hreach : (dsOpOf s b).outcome.reachesEngine = true)
    (hdec : decode (engSelector (opResult ((dsOpOf s b).instr b) s) b) = .ok i)
    (hexec : exec i (fed b (opResult ((dsOpOf s b).instr b) s)) = .next t) :
    bitPath b s = .next { t with prevBit := b } := by
  rw [bitPath_eq b s h5, runDs_eq, andThen_next, if_pos hreach, engineStep_of_decode hdec, hexec,
    andThen_next]

/-- Settles O12: the words of the bit path select by the registers; a bit the destuffer keeps ends after its
operation, any other goes through the engine step. -/
theorem clkSampleRunsTheSelectedOperations : Obligations.ClkSampleRunsTheSelectedOperations := by
  intro v s h5 s0
  refine ⟨dsOpOf s0 v, opResult ((dsOpOf s0 v).instr v) s0, decode_dsSelector s0 v, ?_,
    fun hkept => bitPath_of_kept h5 ((not_reachesEngine_iff _).2 hkept),
    fun hreach i s2 hdec hexec => ?_⟩
  · rw [← runDs_eq_exec, runDs_eq]
  · simp only [← feedsCrc15_iff, ← fed_eq] at hexec
    exact bitPath_of_decode h5 (Bool.of_not_eq_false (mt (not_reachesEngine_iff _).1 hreach)) hdec hexec

/-- After five equal bits the destuffer removes a differing bit or raises STUFF (42_destuffer.md R140). -/
theorem dsOpOf_of_runOfFive {s : State} (hactive : s.dsActive = true)
    (hslot : ¬ (s.state = .sbc ∧ s.fieldIdx = 0)) (hfive : s.runLength = 5) (b : Bit) :
    dsOpOf s b = if b = s.lastBit then .stuffError else .stuff := by
  have hforced : forcedSlot s = false := by simpa [forcedSlot] using hslot
  simp [dsOpOf, hactive, hforced, runOfFive, hfive]

/-- Neither operation after a run of five hands its bit to the engine (40_datapath.md R122). -/
theorem exec_clkSample_of_runOfFive {s : State} (hactive : s.dsActive = true)
    (hslot : ¬ (s.state = .sbc ∧ s.fieldIdx = 0)) (hfive : s.runLength = 5) (b : Bit) :
    exec (.clkSample b) s = .next
      { opResult ((if b = s.lastBit then DsOp.stuffError else .stuff).instr b) (centred s) with
        prevBit := b } := by
  have hop := dsOpOf_of_runOfFive (s := centred s) hactive hslot hfive b
  have h5 : (centred s).runLength.toNat ≤ 5 := by simp [centred, hfive]
  have hkept : (dsOpOf (centred s) b).outcome.reachesEngine = false := by rw [hop]; split <;> rfl
  rw [exec_clkSample_eq, bitPath_of_kept h5 hkept, hop]
  rfl

/-- Settles O28: DS_STUFF on a differing bit, DS_STUFF_ERROR on an equal one, and nothing after either. -/
theorem bitAfterARunOfFive : Obligations.BitAfterARunOfFive := by
  intro b s hactive hslot hfive
  rw [exec_clkSample_of_runOfFive hactive hslot hfive b]
  refine ⟨fun hne => ?_, fun heq => ?_⟩
  · rw [if_neg hne]; rfl
  · rw [if_pos heq]; rfl

/-! ## The tick -/

@[simp] theorem clocked_cfg (v : Bit) (s : State) : (clocked v s).cfg = s.cfg := by rw [clocked_eq]

@[simp] theorem clocked_input (v : Bit) (s : State) : (clocked v s).input = s.input := by rw [clocked_eq]

@[simp] theorem clocked_sampleIdx (v : Bit) (s : State) : (clocked v s).sampleIdx = s.sampleIdx := by
  rw [clocked_eq]

@[simp] theorem clocked_prevLevel (v : Bit) (s : State) : (clocked v s).prevLevel = v := rfl

theorem exec_tick_of_not_due {raw : Bit} {s : State} (hlegal : s.cfg.legal = true)
    (hdue : isDue (clocked (raw ^^ s.cfg.invert) s) = false) :
    exec (.tick raw) s =
      .next { clocked (raw ^^ s.cfg.invert) s with sampleIdx := s.sampleIdx + 1 } := by
  simp only [exec]
  rw [execTick_eq, if_pos hlegal, if_neg (Bool.eq_false_iff.1 hdue), andThen_next, clocked_sampleIdx]

theorem exec_tick_of_due {raw : Bit} {s t : State} (hlegal : s.cfg.legal = true)
    (hdue : isDue (clocked (raw ^^ s.cfg.invert) s) = true)
    (h : exec (.clkSample (raw ^^ s.cfg.invert)) (clocked (raw ^^ s.cfg.invert) s) = .next t) :
    exec (.tick raw) s = .next { t with sampleIdx := s.sampleIdx + 1 } := by
  obtain ⟨-, -, hidx, -⟩ := bitPath_ports h
  have hidx' : t.sampleIdx = s.sampleIdx := hidx.trans (clocked_sampleIdx _ s)
  simp only [exec] at h ⊢
  rw [execTick_eq, if_pos hlegal, if_pos hdue, h, andThen_next, hidx']

/-- Settles O10: the two cases of the due test, made in the state the clock stage leaves. -/
theorem tickComposesClockAndBitPath : Obligations.TickComposesClockAndBitPath := by
  intro raw s hlegal v center u
  have hu : clocked v s = u := clocked_eq v s
  refine ⟨fun hlt => ?_, fun hle t ht => ?_⟩
  · rw [← hu]
    refine exec_tick_of_not_due hlegal ?_
    rw [hu]
    exact decide_eq_false (not_le.2 hlt)
  · rw [← hu] at ht
    refine exec_tick_of_due hlegal ?_ ht
    rw [hu]
    exact decide_eq_true hle

/-- Settles O11: the edge moves the centre to `s + half(T)`, which is past `s` unless `T = 1`. -/
theorem edgeDefersTheDueSample : Obligations.EdgeDefersTheDueSample := by
  intro raw s hlegal hedge
  obtain ⟨hnotDue, hdue⟩ := tickComposesClockAndBitPath raw s hlegal
  rw [if_neg hedge] at hnotDue hdue
  refine ⟨fun hT => hnotDue (by omega), fun hT hinv => ?_⟩
  have hclocked := inv_clocked hinv (raw ^^ s.cfg.invert)
  rw [clocked_eq, if_neg hedge] at hclocked
  obtain ⟨t, ht, hprev, -⟩ := clkSampleCompletesUnderTheInvariant (raw ^^ s.cfg.invert) _ hclocked
  exact ⟨_, hdue (by omega) t ht, hprev⟩

/-- What every completed TICK does to the clock registers and ports it does not share with its bit. -/
theorem execTick_ports {raw : Bit} {s t : State} (h : execTick raw s = .next t) :
    t.sampleIdx = s.sampleIdx + 1 ∧ t.cfg = s.cfg ∧ t.input = s.input ∧
      t.prevLevel = (raw ^^ s.cfg.invert) := by
  obtain ⟨-, u, hu, rfl⟩ := execTick_eq_next h
  split at hu
  · obtain ⟨hcfg, hinput, hidx, hlevel⟩ := bitPath_ports hu
    simp only [clocked_cfg, clocked_input, clocked_sampleIdx, clocked_prevLevel] at hcfg hinput hidx hlevel
    exact ⟨congrArg (· + 1) hidx, hcfg, hinput, hlevel⟩
  · obtain rfl := Host.Outcome.next.inj hu
    simp

/-- Settles O14: completion is the invariant's, the rest holds of every completed TICK. -/
theorem tickCompletesAndCountsTheSample : Obligations.TickCompletesAndCountsTheSample := by
  refine fun raw s => ⟨fun hinv => ?_, fun t ht => ?_⟩
  · obtain ⟨t, ht, -⟩ := execTick_keeps_inv hinv raw
    obtain ⟨-, -, -, hlevel⟩ := execTick_ports ht
    exact ⟨t, ht, hlevel⟩
  · obtain ⟨hidx, hcfg, hinput, -⟩ := execTick_ports ht
    exact ⟨hidx, hcfg, hinput⟩

/-! ## The output ports -/

/-- TICK clears the output ports before anything else, and RESET loads them. -/
theorem exec_host_outputs (rst raw : Bit) (s : State) (r : Option FieldRec) (m : Option Mark) :
    exec (if rst then .reset else .tick raw) { s with recOut := r, markOut := m } =
      exec (if rst then .reset else .tick raw) s := by
  cases rst
  case false => exact (execTick_eq raw _).trans (execTick_eq raw s).symm
  case true => rfl

/-- Settles O56: a step reads the ports of its tick and runs RESET or TICK, which overwrite the outputs. -/
theorem outputsAreNeverRead : Obligations.OutputsAreNeverRead := by
  intro s r m
  let u : State := { s with recOut := r, markOut := m }
  by_cases hnil : s.input = []
  · exact (step_nil (s := u) hnil).trans (step_nil hnil).symm
  · obtain ⟨p, rest, hin⟩ := List.exists_cons_of_ne_nil hnil
    have hu : u.input = p :: rest := hin
    rw [step_cons hin, step_cons hu]
    exact congrArg (ite _ _) (exec_host_outputs p.rst p.raw { s with cfg := p.cfg, input := rest } r m)

end Sys2Proof.Machine
end

section
/-! PROOFS. The obligations of 41_crc_engines.md: a CRC step as arithmetic on numbers (O25), and the check
of a CRC field against its accumulator (O26). -/

namespace Sys2Proof.Machine

/-! ## One CRC step -/

/-- R130 in numbers, for every width and polynomial. -/
theorem crcStep_toNat {w : Nat} (poly acc : BitVec w) (b : Bit) :
    (crcStep poly acc b).toNat =
      if (b = true ↔ 2 ^ (w - 1) ≤ acc.toNat) then 2 * acc.toNat % 2 ^ w
      else Nat.xor (2 * acc.toNat % 2 ^ w) poly.toNat := by
  have hdouble : (acc <<< 1).toNat = 2 * acc.toNat % 2 ^ w := by
    rw [BitVec.toNat_shiftLeft, Nat.shiftLeft_eq, pow_one, Nat.mul_comm]
  have htop : (b = true ↔ 2 ^ (w - 1) ≤ acc.toNat) ↔ b = acc.msb := by
    rw [BitVec.msb_eq_decide, Bool.eq_iff_iff (b := decide _), decide_eq_true_iff]
  simp only [htop, ← hdouble]
  split_ifs with h
  · simp [crcStep, h]
  · have hadd : crcStep poly acc b = acc <<< 1 ^^^ poly := by simp [crcStep, h]
    rw [hadd, BitVec.toNat_xor]
    rfl

/-- Settles O25: the operations write `crcStep` of their register, and `crcStep_toNat` reads it in numbers. -/
theorem crcStepsAreShiftAndXor : Obligations.CrcStepsAreShiftAndXor := fun b s =>
  ⟨exec_eq_opResult rfl nofun, exec_eq_opResult rfl nofun, exec_eq_opResult rfl nofun,
    crcStep_toNat poly15 s.crc15 b, crcStep_toNat poly17 s.crc17 b, crcStep_toNat poly21 s.crc21 b⟩

/-! ## The bits of a field

An odd polynomial shows in the lowest bit whether it was added. A step that leaves the lowest bit 0 therefore
took the bit that was dropped, and its result is the register moved up by one. Read backwards from 0, the
register held the bits that were fed. -/

theorem crcStep_getLsbD_zero {w : Nat} {poly : BitVec w} (hodd : poly.getLsbD 0 = true) (acc : BitVec w)
    (b : Bit) : (crcStep poly acc b).getLsbD 0 = (b ^^ acc.msb) := by
  cases h : b ^^ acc.msb <;> simp [crcStep, h, hodd]

theorem crcStep_msb {w : Nat} (poly acc : BitVec w) : crcStep poly acc acc.msb = acc <<< 1 := by
  simp [crcStep]

/-- One step back: an engine whose step leaves fewer than `w` bits, zeros below them, held the step's bit on
top of these. -/
theorem crcStep_getMsbD_iff {w : Nat} {poly : BitVec w} (hodd : poly.getLsbD 0 = true) (hw : 0 < w)
    {bits : List Bit} (hlen : bits.length < w) (acc : BitVec w) (b : Bit) :
    (∀ k, (crcStep poly acc b).getMsbD k = bits.getD k false) ↔
      ∀ k, acc.getMsbD k = (b :: bits).getD k false := by
  constructor
  · intro h
    have hlast : (b ^^ acc.msb) = false := by
      rw [← crcStep_getLsbD_zero hodd, ← List.getD_eq_default bits false (n := w - 1) (by omega), ← h,
        BitVec.getMsbD_eq_getLsbD]
      simp [hw]
    obtain rfl : b = acc.msb := by simpa using hlast
    rintro (_ | k)
    · exact acc.msb_eq_getMsbD_zero.symm
    · simpa [crcStep_msb] using h k
  · intro h k
    obtain rfl : acc.msb = b := acc.msb_eq_getMsbD_zero.trans (h 0)
    simpa [crcStep_msb] using h (k + 1)

/-- Fed at most `w` bits, an engine is left with 0 exactly when it held these bits, the first one on top, and
zeros below. -/
theorem foldl_crcStep_eq_zero_iff {w : Nat} {poly : BitVec w} (hodd : poly.getLsbD 0 = true)
    {bits : List Bit} (hlen : bits.length ≤ w) (acc : BitVec w) :
    bits.foldl (crcStep poly) acc = 0 ↔ ∀ k, acc.getMsbD k = bits.getD k false := by
  induction bits generalizing acc with
  | nil =>
    constructor
    · rintro rfl k
      simp
    · exact fun h => BitVec.eq_of_getMsbD_eq fun k _ => by simpa using h k
  | cons b bits ih =>
    rw [List.length_cons] at hlen
    rw [List.foldl_cons, ih (by omega), crcStep_getMsbD_iff hodd (by omega) (by omega)]

theorem bitsMsbFirst_getD {w : Nat} (x : BitVec w) (k : Nat) :
    (bitsMsbFirst x).getD k false = x.getMsbD k := by
  by_cases hk : k < w
  · simp [bitsMsbFirst, hk]
  · rw [List.getD_eq_default _ _ (by simpa using hk), BitVec.getMsbD_of_ge x k (by omega)]

theorem foldl_crcStep_bitsMsbFirst_eq_zero_iff {w : Nat} {poly : BitVec w} (hodd : poly.getLsbD 0 = true)
    (acc x : BitVec w) : (bitsMsbFirst x).foldl (crcStep poly) acc = 0 ↔ x = acc := by
  simp only [foldl_crcStep_eq_zero_iff hodd (length_bitsMsbFirst x).le, bitsMsbFirst_getD]
  exact ⟨fun h => BitVec.eq_of_getMsbD_eq fun k _ => (h k).symm, fun h _ => by rw [h]⟩

/-! ## An engine run over a field -/

section

variable {w : Nat} {poly : BitVec w} {op : Bit → Instr} {reg : State → BitVec w}

/-- Operation `op` is the step of an engine with polynomial `poly` on the accumulator `reg`. -/
def StepsEngine (op : Bit → Instr) (poly : BitVec w) (reg : State → BitVec w) : Prop :=
  ∀ b s, ∃ t, exec (op b) s = .next t ∧ reg t = crcStep poly (reg s) b

theorem execBits_of_stepsEngine (hop : StepsEngine op poly reg) (bits : List Bit) (s : State) :
    ∃ t, execBits op bits s = .next t ∧ reg t = bits.foldl (crcStep poly) (reg s) := by
  induction bits generalizing s with
  | nil => exact ⟨s, rfl, rfl⟩
  | cons b bits ih =>
    obtain ⟨u, hu, hreg⟩ := hop b s
    obtain ⟨t, ht, hfold⟩ := ih u
    exact ⟨t, by rw [execBits, hu, andThen_next, ht], by rw [hfold, hreg, List.foldl_cons]⟩

/-- R138 for an engine with an odd polynomial. -/
theorem fieldCheck_of_stepsEngine (hop : StepsEngine op poly reg) (hodd : poly.getLsbD 0 = true) (s : State)
    (x : BitVec w) : ∃ t, execBits op (bitsMsbFirst x) s = .next t ∧ (reg t = 0 ↔ x = reg s) := by
  obtain ⟨t, ht, hfold⟩ := execBits_of_stepsEngine hop (bitsMsbFirst x) s
  exact ⟨t, ht, by rw [hfold, foldl_crcStep_bitsMsbFirst_eq_zero_iff hodd]⟩

end

theorem stepsEngine_crc15 : StepsEngine .crc15Step poly15 State.crc15 := fun _ _ =>
  ⟨_, exec_eq_opResult rfl nofun, rfl⟩

theorem stepsEngine_crc17 : StepsEngine .crc17Step poly17 State.crc17 := fun _ _ =>
  ⟨_, exec_eq_opResult rfl nofun, rfl⟩

theorem stepsEngine_crc21 : StepsEngine .crc21Step poly21 State.crc21 := fun _ _ =>
  ⟨_, exec_eq_opResult rfl nofun, rfl⟩

/-- Settles O26: the three polynomials are odd, so a field of the engine's width leaves 0 only for the value
held. -/
theorem crcFieldChecksExactlyItsAccumulator : Obligations.CrcFieldChecksExactlyItsAccumulator := fun s =>
  ⟨fieldCheck_of_stepsEngine stepsEngine_crc15 (by decide) s,
    fieldCheck_of_stepsEngine stepsEngine_crc17 (by decide) s,
    fieldCheck_of_stepsEngine stepsEngine_crc21 (by decide) s⟩

end Sys2Proof.Machine
end

section
/-! PROOFS. The obligations of 42_destuffer.md: which operation a bit selects and with which outcome (O5), the
six operations' effects (O27), and no dynamic stuffing in the SBC field (O29). -/

namespace Sys2Proof.Machine

/-! ## Selection and results -/

/-- Settles O5: the condition of the operation that the DS word selects decides each test of the priority
chain up to that operation. -/
theorem destufferSelectionFollowsPriority : Obligations.DestufferSelectionFollowsPriority := by
  intro s b chosen
  have hchosen : chosen = (dsOpOf s b, (dsOpOf s b).outcome) := by
    have hc := dsCondition_dsOpOf s b
    cases hop : dsOpOf s b <;> rw [hop] at hc
    case direct => exact if_pos hc
    case forced =>
      obtain ⟨hactive, hslot⟩ := hc
      exact (if_neg (by simp [hactive])).trans (if_pos hslot)
    all_goals
      obtain ⟨⟨hactive, hslot⟩, hrun, hbit⟩ := hc
      refine (if_neg (by simp [hactive])).trans ((if_neg hslot).trans ?_)
      simp_all [DsOp.outcome]
  rw [hchosen]
  exact ⟨decode_dsSelector s b, rfl⟩

/-- The stuff bit count in numbers: it wraps at 256 (42_destuffer.md R143). -/
theorem stuffCount_succ (n : BitVec 8) : n + 1 = BitVec.ofNat 8 ((n.toNat + 1) % 256) :=
  BitVec.eq_of_toNat_eq (by simp)

/-- Settles O27: each operation leaves its row of `opResult`, where DS_STUFF adds 1 to an 8-bit count. -/
theorem destufferOperationResults : Obligations.DestufferOperationResults := by
  intro b s
  have hresult (op : DsOp) : exec (op.instr b) s = .next (opResult (op.instr b) s) := by
    rw [← runDs_eq_exec, runDs_eq]
  rw [← stuffCount_succ]
  exact ⟨hresult .direct, hresult .forced, hresult .stuff, hresult .stuffError, hresult .passSame,
    hresult .passToggle⟩

/-! ## The SBC field -/

/-- In SBC the destuffer hands every bit on: the first one is forced, and after it the run restarted and is
shorter than five until the field ends (42_destuffer.md R141). -/
theorem reachesEngine_of_sbc {s : State} (hinv : Inv s) (hs : s.state = .sbc) (b : Bit) :
    (dsOpOf s b).outcome.reachesEngine = true := by
  have hslot : s.fieldIdx.toNat ≤ 4 := by simpa only [slotInRange, hs] using hinv.slot
  obtain ⟨-, -, -, hrun⟩ := hinv.run
  refine (reachesEngine_iff s b).2 (.inr ?_)
  by_cases hfirst : s.fieldIdx = 0
  · exact .inl ⟨hs, hfirst⟩
  · have hle := hrun hs (by bv_omega)
    exact .inr (by bv_omega)

/-- A destuffer operation that hands a bit on keeps the engine's place and the stuff bit count. -/
theorem fed_dsResult_frame {ds : DsOp} (h : ds.outcome.reachesEngine = true) (b : Bit) (s : State) :
    (fed b (opResult (ds.instr b) s)).state = s.state ∧
    (fed b (opResult (ds.instr b) s)).fieldIdx = s.fieldIdx ∧
    (fed b (opResult (ds.instr b) s)).stuffCount = s.stuffCount := by
  rw [fed_eq]
  cases ds
  case stuff => cases h
  case stuffError => cases h
  all_goals exact ⟨rfl, rfl, rfl⟩

/-- The three rows of the SBC field. -/
theorem sbcRow_of_mapCondition {op : EngOp} {s : State} {b : Bit} (hop : mapCondition op s b)
    (hs : s.state = .sbc) : (op = .sbcFsb ∧ s.fieldIdx = 0) ∨ op = .sbcBit ∨ op = .sbcLast := by
  cases op <;> simp_all [mapCondition, ← BitVec.toNat_inj]

/-- An SBC row counts no stuff bit, and only SBC_FSB can enter DECODER_ERROR. -/
theorem sbcRow_result {op : EngOp} {s : State} {b : Bit} (hop : mapCondition op s b)
    (hs : s.state = .sbc) :
    (opResult (op.instr b) s).stuffCount = s.stuffCount ∧
    ((opResult (op.instr b) s).state = .decoderError →
      (opResult (op.instr b) s).errCause = .fixedStuff ∧
      (opResult (op.instr b) s).errState = .sbc ∧ s.fieldIdx = 0) := by
  have hstay : s.state ≠ .decoderError := by simp [hs]
  obtain ⟨rfl, hfirst⟩ | rfl | rfl := sbcRow_of_mapCondition hop hs
  · simp only [EngOp.instr, opResult]
    split_ifs
    · exact ⟨rfl, fun _ => ⟨rfl, hs, hfirst⟩⟩
    · exact ⟨rfl, fun he => absurd he hstay⟩
  · exact ⟨rfl, fun he => absurd he hstay⟩
  · exact ⟨rfl, fun he => absurd he (fdCrcState_ne s.dlc).2⟩

/-- Settles O29: every bit of the field reaches an SBC row, through a destuffer operation that counts
nothing. -/
theorem noDynamicStuffingInSbc : Obligations.NoDynamicStuffingInSbc := by
  intro b s t hinv hs hexec
  have hcentred := inv_centred hinv
  have hreach := reachesEngine_of_sbc hcentred hs b
  obtain ⟨op, hop⟩ := exists_mapCondition hcentred b
  obtain rfl := Host.Outcome.next.inj
    (hexec.symm.trans (bitPath_of_mapCondition hcentred.run.1 hreach hop))
  obtain ⟨hstate, hidx, hcount⟩ := fed_dsResult_frame hreach b (centred s)
  obtain ⟨hkeep, herror⟩ :=
    sbcRow_result ((mapCondition_dsResult hreach b (centred s)).2 hop) (hstate.trans hs)
  rw [hidx] at herror
  exact ⟨hkeep.trans hcount, herror⟩

end Sys2Proof.Machine
end

section
/-! PROOFS. The obligations of 43_engine_header.md: what each bit of a frame's header leaves, from the SOF
bit (O30) over the identifier (O32, O34) to the control fields (O35 to O38). -/

namespace Sys2Proof.Machine

/-! ## The header's payloads and routes -/

/-- The 11-bit identifier of the StdIdentifier record (43_engine_header.md R153). -/
theorem baseIdentifier_payload (x : BitVec 29) :
    (x &&& 0x7FF).setWidth 32 = BitVec.ofNat 32 (x.toNat % 2 ^ 11) := by
  apply BitVec.eq_of_toNat_eq
  have hmask : (x &&& 0x7FF).toNat = x.toNat % 2 ^ 11 := Nat.and_two_pow_sub_one_eq_mod x.toNat 11
  rw [BitVec.toNat_setWidth, hmask, BitVec.toNat_ofNat]

/-- A classic frame leaves its control field for DATA or CRC15 (43_engine_header.md R160). -/
theorem afterControl_of_classic {s : State} (h : s.frameType ≠ .fdData) :
    afterControl s = { s with state := if 0 < s.byteCount then .data else .crc15, fieldIdx := 0 } := by
  simp [afterControl_eq, h]

theorem byteCount_of_classic {ft : FrameType} (h : ft ≠ .fdData) (dlc : BitVec 4) :
    byteCount ft dlc = if ft = .remote then 0 else min dlc.toNat 8 := by
  cases ft
  case data => rfl
  case remote => rfl
  case fdData => exact absurd rfl h

theorem byteCount_fdData_eq_zero_iff (dlc : BitVec 4) : byteCount .fdData dlc = 0 ↔ dlc.toNat = 0 := by
  revert dlc; decide

/-- An FD frame leaves its control field for DATA, or without data for SBC or CRC17
(43_engine_header.md R163). -/
theorem afterControl_of_fdData {s : State} (h : s.frameType = .fdData) :
    afterControl s = { s with
      state := if s.dlc.toNat ≠ 0 then .data else if s.cfg.iso then .sbc else .crc17
      dsActive := if s.dlc.toNat = 0 ∧ s.cfg.iso = false then false else s.dsActive
      fieldIdx := 0 } := by
  have hcount : s.byteCount = 0 ↔ s.dlc.toNat = 0 := by
    rw [State.byteCount, h, byteCount_fdData_eq_zero_iff]
  rw [afterControl_eq]
  by_cases h0 : s.dlc.toNat = 0
  · simp [hcount.2 h0, h0, h]
  · simp [Nat.pos_of_ne_zero (mt hcount.1 h0), mt hcount.1 h0, h0]

/-- A slot that is counted before it is tested (43_engine_header.md R160, R163), in terms of the slot of the
bit. -/
theorem succ_eq_ofNat_succ_iff {i : BitVec 10} {n : Nat} (hn : n < 1023) :
    i + 1 = BitVec.ofNat 10 (n + 1) ↔ i.toNat = n := by
  rw [BitVec.ofNat_add, ← BitVec.toNat_inj]
  bv_omega

/-! ## The SOF bit and the identifier -/

/-- Settles O30: the rows of `opResult`, with the CRC seeds fed with a dominant bit by computation. -/
theorem idleBitResults : Obligations.IdleBitResults := by
  intro s
  have h17 : crcStep poly17 (seed17 s.cfg.iso) dominant = if s.cfg.iso then 0x1685B else 0 := by
    cases s.cfg.iso <;> rfl
  have h21 : crcStep poly21 (seed21 s.cfg.iso) dominant = if s.cfg.iso then 0x102899 else 0 := by
    cases s.cfg.iso <;> rfl
  rw [← h17, ← h21]
  exact ⟨exec_eq_opResult rfl nofun, exec_eq_opResult rfl nofun⟩

/-- Settles O32: both operations leave one row of `opResult`, and `shiftIn_identifier` reads the shift in
numbers. -/
theorem identifierBitShiftsIn : Obligations.IdentifierBitShiftsIn := by
  intro b s
  rw [← shiftIn_identifier]
  exact ⟨exec_eq_opResult rfl nofun, exec_eq_opResult rfl nofun⟩

/-- Settles O34: the rows of `opResult`, with the payloads of the two records in numbers. -/
theorem rtrIdeAndExtendedRtrResults : Obligations.RtrIdeAndExtendedRtrResults := by
  intro b s
  refine ⟨exec_eq_opResult rfl nofun, ?_, ?_⟩
  · rw [← baseIdentifier_payload, ← bitAs_eq_ite]
    cases b <;> exact exec_eq_opResult rfl nofun
  · rw [← bitAs_eq_ite, BitVec.ofNat_toNat]
    exact exec_eq_opResult rfl nofun

/-! ## The control fields -/

/-- Settles O35: the rows of `opResult`, that of CB_FDF for each value of the bit. -/
theorem fdfAndReservedBitResults : Obligations.FdfAndReservedBitResults := by
  intro b s
  refine ⟨?_, exec_eq_opResult rfl nofun, exec_eq_opResult rfl nofun, exec_eq_opResult rfl nofun⟩
  cases b <;> exact exec_eq_opResult rfl nofun

/-- Settles O37: a recessive BRS bit is CLK_SWITCH_UP, which puts the data rate in force; a dominant one
leaves the rate alone. -/
theorem brsAndEsiBitResults : Obligations.BrsAndEsiBitResults := by
  intro b s
  refine ⟨exec_eq_opResult rfl nofun, exec_eq_opResult rfl nofun,
    ⟨opResult (.caBrs b) s, exec_eq_opResult rfl nofun, ?_⟩, exec_eq_opResult rfl nofun⟩
  cases b
  · exact ⟨rfl, rfl, (Bool.or_false _).symm⟩
  · exact ⟨rfl, rfl, (Bool.or_true _).symm⟩

/-- Settles O36: the row of `opResult`, where the last slot ends a classic control field. -/
theorem classicDlcBitResult : Obligations.ClassicDlcBitResult := by
  intro b s hft d n t
  have hlast : s.fieldIdx + 1 = 4 ↔ s.fieldIdx.toNat = 3 := succ_eq_ofNat_succ_iff (by decide)
  have hexec : exec (.caDlcClassic b) s = .next (opResult (.caDlcClassic b) s) :=
    exec_eq_opResult rfl nofun
  have hlt : d < 2 ^ 4 := Nat.mod_lt _ (by decide)
  have hdlc : shiftIn 0xF s.dlc b = BitVec.ofNat 4 d := shiftIn_nibble s.dlc b
  simp only [hexec, opResult, hdlc]
  refine ⟨fun h => ?_, fun h => ?_⟩
  · exact congrArg _ (if_neg (mt hlast.1 h))
  · rw [if_pos (hlast.2 h), afterControl_of_classic (by exact hft)]
    simp only [State.byteCount, byteCount_of_classic hft, setWidth_ofNat_of_lt hlt, BitVec.toNat_ofNat,
      Nat.mod_eq_of_lt hlt]
    rfl

/-- Settles O38: the row of `opResult`, where the last slot ends an FD control field. -/
theorem fdDlcBitResult : Obligations.FdDlcBitResult := by
  intro b s hft d t
  have hlast : s.fieldIdx + 1 = 6 ↔ s.fieldIdx.toNat = 5 := succ_eq_ofNat_succ_iff (by decide)
  have hexec : exec (.caDlcFd b) s = .next (opResult (.caDlcFd b) s) := exec_eq_opResult rfl nofun
  have hlt : d < 2 ^ 4 := Nat.mod_lt _ (by decide)
  have hdlc : shiftIn 0xF s.dlc b = BitVec.ofNat 4 d := shiftIn_nibble s.dlc b
  simp only [hexec, opResult, hdlc]
  refine ⟨fun h => ?_, fun h => ?_⟩
  · exact congrArg _ (if_neg (mt hlast.1 h))
  · rw [if_pos (hlast.2 h), afterControl_of_fdData (by exact hft)]
    simp only [setWidth_ofNat_of_lt hlt, flagPair_eq, BitVec.toNat_ofNat, Nat.mod_eq_of_lt hlt]
    rfl

end Sys2Proof.Machine
end

section
/-! PROOFS. The obligations of 44_engine_payload.md: what each bit of the DATA field (O39), of the SBC field
(O42, O43) and of the CRC fields (O44 to O46) leaves. -/

namespace Sys2Proof.Machine

/-! ## The data bits -/

/-- Settles O39: DATA_BIT writes one byte of a canonical buffer, and the slot after the bit decides the record
and the route. -/
theorem dataBitShiftsIntoItsByte : Obligations.DataBitShiftsIntoItsByte := by
  intro b s hidx hwf k n byte
  have hk : k < bufSize := by unfold bufSize; omega
  have hsucc : (s.fieldIdx + 1).toNat = n := by bv_omega
  have hslot : s.fieldIdx + 1 = BitVec.ofNat 10 n := by
    rw [← hsucc, BitVec.ofNat_toNat, BitVec.setWidth_eq]
  have hbyte : shiftIn 0xFF (s.bufRead k) b = byte := shiftIn_byte ..
  have hread : memRead (memWrite s.buf k byte) k = byte := memRead_memWrite_same hwf k byte
  have hexec : exec (.dataBit b) s =
      .next (dataBitRouted (dataBitCounted k b { s with buf := memWrite s.buf k byte })) :=
    hbyte ▸ execDataBit_eq b s hidx
  refine ⟨_, hexec, ?_⟩
  rw [dataBitRouted_eq, dataBitCounted_eq]
  refine ⟨hread, fun j hj => (memRead_memWrite hwf k j byte).trans (if_neg hj),
    Memory.wf_memWrite hwf byte hk, ?_⟩
  simp only [← hslot, hsucc, State.bufRead, hread, BitVec.ofNat_toNat]
  rfl

/-! ## The SBC field -/

/-- Settles O42: the rows of `opResult`, with the four bits kept in numbers by `shiftIn_nibble`. -/
theorem sbcBitResults : Obligations.SbcBitResults := by
  intro b s
  rw [← shiftIn_nibble]
  exact ⟨exec_eq_opResult rfl nofun, exec_eq_opResult rfl nofun⟩

/-! The functions of 44_engine_payload.md R174 in numbers, of the four received bits. -/

theorem sbcCount_toNat (x : BitVec 4) :
    (sbcCount x).toNat = [0, 1, 3, 2, 7, 6, 4, 5].getD (x.toNat / 2) 0 := by
  revert x; decide

theorem sbcParityErr_toNat (x : BitVec 4) :
    (sbcParityErr x).toNat = (x.toNat % 2 + x.toNat / 2 % 2 + x.toNat / 4 % 2 + x.toNat / 8) % 2 := by
  revert x; decide

theorem sbcCountErr_toNat (x : BitVec 4) (n : BitVec 8) :
    (sbcCountErr x n).toNat = if (sbcCount x).toNat = n.toNat % 8 then 0 else 1 := by
  by_cases h : (sbcCount x).toNat = n.toNat % 8 <;> simp [sbcCountErr, h]

/-- Settles O43: the row of `opResult`, with the count and the flags of the four bits in numbers. -/
theorem sbcLastBitResult : Obligations.SbcLastBitResult := by
  refine ⟨by decide, ?_⟩
  intro b s w count parity mismatch
  have hw : (BitVec.ofNat 4 w).toNat = w := Nat.mod_eq_of_lt (Nat.mod_lt _ (by decide))
  have hbits : shiftIn 0xF s.sbcBits b = BitVec.ofNat 4 w := shiftIn_nibble ..
  have hcount : (sbcCount (BitVec.ofNat 4 w)).toNat = count := by rw [sbcCount_toNat, hw]
  have hparity : (sbcParityErr (BitVec.ofNat 4 w)).toNat = parity := by rw [sbcParityErr_toNat, hw]
  have hmismatch : (sbcCountErr (BitVec.ofNat 4 w) s.stuffCount).toNat = mismatch := by
    rw [sbcCountErr_toNat, hcount]
  rw [← hparity, ← hmismatch, ← flagPair_eq, ← hcount, BitVec.ofNat_toNat, ← hbits]
  exact exec_eq_opResult rfl nofun

/-! ## The CRC fields -/

/-- The payload of a CRC record in numbers: the received value under a mask of `n` ones
(30_encoding.md R82). -/
theorem setWidth_shiftIn_crcRx (n : Nat) (hn : n ≤ 21) (r : BitVec 21) (b : Bit) :
    (shiftIn (BitVec.ofNat 21 (2 ^ n - 1)) r b).setWidth 32 =
      BitVec.ofNat 32 ((2 * r.toNat + b.toNat) % 2 ^ n) := by
  rw [shiftIn_eq n hn (by decide)]
  exact setWidth_ofNat_of_lt
    (lt_of_lt_of_le (Nat.mod_lt _ (Nat.two_pow_pos n)) (Nat.pow_le_pow_right (by decide) hn))

/-- The mark of a CRC field's last bit, by the accumulator (44_engine_payload.md R183, R184). -/
theorem crcMark_bne_zero {w : Nat} (acc : BitVec w) (b : Bit) (s : State) :
    crcMark (acc != 0) b s =
      ⟨if acc = 0 then (if b then .one else .zero) else .errorSquare, s.sampleIdx⟩ := by
  by_cases h : acc = 0
  · simp [crcMark, bitMark, h]
  · rw [crcMark, if_pos (bne_iff_ne.2 h), if_neg h]

/-- The flag of a CRC record, by the accumulator (30_encoding.md R82). -/
theorem bitAs_bne_zero {w : Nat} (acc : BitVec w) : bitAs 32 (acc != 0) = if acc = 0 then 0 else 1 := by
  by_cases h : acc = 0 <;> simp [bitAs_eq_ite, h]

/-- Settles O44: the rows of `opResult`, that of CRC15_LAST for an accumulator of 0 and another. -/
theorem crc15FieldBitResults : Obligations.Crc15FieldBitResults := by
  intro b s rx
  have hrx : shiftIn rxMask15 s.crcRx b = BitVec.ofNat 21 rx := shiftIn_rxMask15 ..
  have hpayload : (shiftIn rxMask15 s.crcRx b).setWidth 32 = BitVec.ofNat 32 rx :=
    setWidth_shiftIn_crcRx 15 (by decide) ..
  have hlast : exec (.crc15Last b) s = .next (opResult (.crc15Last b) s) := exec_eq_opResult rfl nofun
  rw [← hpayload, ← hrx]
  refine ⟨exec_eq_opResult rfl nofun, fun h => ?_, fun h => ?_⟩
  · have herr : (s.crc15 != 0) = false := bne_eq_false_iff_eq.2 h
    simp only [hlast, opResult, herr]
    rfl
  · have herr : (s.crc15 != 0) = true := bne_iff_ne.2 h
    simp only [hlast, opResult, herr]
    rfl

/-- Settles O45: the rows of `opResult`, with the received CRC in numbers by the masks of the two fields. -/
theorem fdCrcFieldBitResults : Obligations.FdCrcFieldBitResults := by
  intro b s t
  rw [← shiftIn_rxMask17, ← shiftIn_rxMask21]
  exact ⟨exec_eq_opResult rfl nofun, exec_eq_opResult rfl nofun, exec_eq_opResult rfl nofun,
    exec_eq_opResult rfl nofun⟩

/-- Settles O46: the rows of `opResult`, with the mark and the flag read off the accumulator. -/
theorem fdCrcLastBitResults : Obligations.FdCrcLastBitResults := by
  intro b s a17 rx17 a21 rx21 mark
  have hrx17 : shiftIn rxMask17 s.crcRx b = BitVec.ofNat 21 rx17 := shiftIn_rxMask17 ..
  have hrx21 : shiftIn rxMask21 s.crcRx b = BitVec.ofNat 21 rx21 := shiftIn_rxMask21 ..
  have hpayload17 : (shiftIn rxMask17 s.crcRx b).setWidth 32 = BitVec.ofNat 32 rx17 :=
    setWidth_shiftIn_crcRx 17 (by decide) ..
  have hpayload21 : (shiftIn rxMask21 s.crcRx b).setWidth 32 = BitVec.ofNat 32 rx21 :=
    setWidth_shiftIn_crcRx 21 (by decide) ..
  rw [← hpayload17, ← hpayload21, ← hrx17, ← hrx21, ← bitAs_bne_zero a17, ← bitAs_bne_zero a21,
    ← crcMark_bne_zero a17 b s, ← crcMark_bne_zero a21 b s]
  exact ⟨exec_eq_opResult rfl nofun, exec_eq_opResult rfl nofun⟩

end Sys2Proof.Machine
end

section
/-! PROOFS. The obligations of 45_engine_trailer.md: what the CRC delimiter (O47), the ACK, EOF and
intermission bits (O48) and a bit in DECODER_ERROR (O49) leave, and the recovery of eleven recessive bits
(O53). -/

namespace Sys2Proof.Machine

/-! ## The trailer bits -/

/-- Settles O47: the row of `opResult` for each level and rate; a recessive delimiter at the data rate is
CLK_SWITCH_DOWN, and at the arbitration rate that rate was in force already. -/
theorem crcDelimiterResults : Obligations.CrcDelimiterResults := by
  intro s
  have hexec (b : Bit) : exec (.crcdelBit b) s = .next (opResult (.crcdelBit b) s) :=
    exec_eq_opResult rfl nofun
  refine ⟨hexec false, fun hrate => ?_, fun hrate => ?_, _, hexec true, ?_⟩
  · simp [hexec, opResult, hrate]
  · simp only [hexec, opResult, hrate]
    rfl
  · cases hrate : s.dataRate <;> simp [opResult, hrate]

/-- Settles O48: the rows of `opResult`; a slot after which the index is 7 or 3 is slot 6 or 2. -/
theorem ackEofAndIntermissionBitResults : Obligations.AckEofAndIntermissionBitResults := by
  intro b s next bad
  have heof : s.fieldIdx + 1 = 7 ↔ s.fieldIdx = 6 := BitVec.add_left_inj (y := 6) 1
  have hifs : s.fieldIdx + 1 = 3 ↔ s.fieldIdx = 2 := BitVec.add_left_inj (y := 2) 1
  rw [← bitAs_eq_ite]
  refine ⟨exec_eq_opResult rfl nofun, exec_eq_opResult rfl nofun, exec_eq_opResult rfl nofun,
    exec_eq_opResult rfl nofun, (exec_eq_opResult (i := .eofBit true) rfl nofun).trans ?_,
    (exec_eq_opResult (i := .ifsBit true) rfl nofun).trans ?_⟩
  · exact congrArg _ (if_congr heof rfl rfl)
  · exact congrArg _ (if_congr hifs rfl rfl)

/-! ## A bit in DECODER_ERROR -/

/-- The recessive row of ERR_BIT, by the count before the bit (45_engine_trailer.md R198). -/
theorem opResult_errBit_recessive (s : State) : opResult (.errBit true) s =
    if s.errCount = 10 then returnFromError s else { s with errCount := s.errCount + 1 } :=
  if_congr (BitVec.add_left_inj (y := 10) 1) rfl rfl

/-- Settles O49: the row of `opResult`, with the codes of the cause and of the state of detection in
numbers. -/
theorem errorBitResults : Obligations.ErrorBitResults := by
  intro s cause detected
  have hcause : s.errCause.code.setWidth 32 = cause := by
    unfold cause; cases s.errCause <;> rfl
  have hdetected : s.errState.code.setWidth 32 = detected := by
    unfold detected; cases s.errState <;> rfl
  rw [← hcause, ← hdetected, exec_eq_opResult (i := .errBit true) rfl nofun, opResult_errBit_recessive]
  exact ⟨exec_eq_opResult rfl nofun, rfl⟩

/-- A bit taken by the clock in DECODER_ERROR is ERR_BIT's: destuffing is inactive there and CRC-15 is not
fed. -/
theorem exec_clkSample_of_decoderError {s : State} (hs : s.state = .decoderError)
    (hds : s.dsActive = false) (h5 : s.runLength.toNat ≤ 5) (b : Bit) :
    exec (.clkSample b) s = .next { opResult (.errBit b) (centred s) with prevBit := b } := by
  have hdirect : dsOpOf (centred s) b = .direct := by simp [dsOpOf, centred, hds]
  have hreach : (dsOpOf (centred s) b).outcome.reachesEngine = true := by rw [hdirect]; rfl
  have hfed : fed b (centred s) = centred s := by simp [fed, centred, hs, feedsCrc15]
  have hrow : mapCondition .errBit (centred s) b := hs
  rw [exec_clkSample_eq, bitPath_of_mapCondition (s := centred s) h5 hreach hrow, hdirect]
  simp only [DsOp.instr, EngOp.instr, opResult, hfed]

/-! ## Recovery -/

/-- `t` is in the DECODER_ERROR of `s`, with `n` recessive bits counted. -/
structure Recovering (s : State) (n : Nat) (t : State) : Prop where
  state : t.state = .decoderError
  inactive : t.dsActive = false
  arbitration : t.dataRate = false
  count : t.errCount.toNat = n
  cause : t.errCause = s.errCause
  detected : t.errState = s.errState
  start : t.fieldStart = s.fieldStart
  cfg : t.cfg = s.cfg

/-- In DECODER_ERROR the invariant leaves destuffing inactive and the arbitration rate in force
(60_exceptions.md R236). -/
theorem recovering_of_inv {s : State} (hinv : Inv s) (hs : s.state = .decoderError)
    (hcount : s.errCount = 0) : Recovering s 0 s where
  state := hs
  inactive := by simpa [destufferScope, hs] using hinv.scope
  arbitration := by simpa [rateScope, hs] using hinv.rate
  count := by rw [hcount]; rfl
  cause := rfl
  detected := rfl
  start := rfl
  cfg := rfl

section
variable {s t : State} {n : Nat} (h : Recovering s n t) {g : Between} (h5 : g.runLength.toNat ≤ 5)
include h h5

/-- A recessive bit before the eleventh is counted, without output. -/
theorem recovering_succ (hn : n < 10) :
    ∃ t', exec (.clkSample true) (g.apply t) = .next t' ∧ Recovering s (n + 1) t' ∧
      t'.recOut = none ∧ t'.markOut = none := by
  obtain ⟨state, inactive, arbitration, rfl, cause, detected, start, cfg⟩ := h
  have hten : ¬ t.errCount = 10 := by bv_omega
  have hsucc : (t.errCount + 1).toNat = t.errCount.toNat + 1 := by bv_omega
  have hrow : opResult (.errBit true) (centred (g.apply t)) =
      { centred (g.apply t) with errCount := t.errCount + 1 } :=
    (opResult_errBit_recessive _).trans (if_neg hten)
  refine ⟨_, exec_clkSample_of_decoderError (s := g.apply t) state inactive h5 true, ?_⟩
  rw [hrow]
  exact ⟨⟨state, inactive, arbitration, hsucc, cause, detected, start, cfg⟩, rfl, rfl⟩

/-- The eleventh recessive bit returns to IDLE with the Error record (45_engine_trailer.md R198). -/
theorem errorRecord_of_recovering (hn : n = 10) :
    ∃ t', exec (.clkSample true) (g.apply t) = .next t' ∧ t'.state = .idle ∧ t'.markOut = none ∧
      t'.recOut = some ⟨.error, s.errCause.code.setWidth 32, s.errState.code.setWidth 32,
        s.fieldStart, (g.sampleIdx : Int) - half s.cfg.tArb + s.cfg.tArb⟩ := by
  obtain ⟨state, inactive, arbitration, rfl, cause, detected, start, cfg⟩ := h
  have hten : (centred (g.apply t)).errCount = 10 := BitVec.eq_of_toNat_eq hn
  have hperiod : t.period = s.cfg.tArb := by
    rw [State.period, arbitration, cfg]
    rfl
  refine ⟨_, exec_clkSample_of_decoderError (s := g.apply t) state inactive h5 true, ?_⟩
  rw [opResult_errBit_recessive, if_pos hten, ← cause, ← detected, ← start, ← hperiod]
  exact ⟨rfl, rfl, rfl⟩

end

/-- Up to ten recessive bits, each at its own time: the last of them leaves no output, whatever stood
there. -/
theorem execBitsAt_recovering {s : State} {before : List Between} (h : Recovering s 0 s)
    (h5 : ∀ g ∈ before, g.runLength.toNat ≤ 5) (hlen : before.length ≤ 10) :
    ∃ t, execBitsAt .clkSample (before.map fun g => (g, true)) s = .next t ∧
      Recovering s before.length t ∧ (before ≠ [] → t.recOut = none ∧ t.markOut = none) := by
  induction before using List.reverseRecOn with
  | nil => exact ⟨s, rfl, h, fun hne => absurd rfl hne⟩
  | append_singleton before g ih =>
    rw [List.length_append, List.length_singleton] at hlen ⊢
    obtain ⟨u, hu, hrec, -⟩ := ih (fun g hg => h5 g (List.mem_append_left _ hg)) (by omega)
    obtain ⟨t, ht, hrec', hquiet⟩ := recovering_succ hrec (h5 g (by simp)) (by omega)
    rw [List.map_append, execBitsAt_append hu]
    exact ⟨t, execBitsAt_cons g ht, hrec', fun _ => hquiet⟩

/-- Settles O53: the bits before the eleventh are counted, and the eleventh puts the record out. -/
theorem recoveryTakesElevenRecessiveBits : Obligations.RecoveryTakesElevenRecessiveBits := by
  intro s before hinv hs hcount h5 hlen
  obtain ⟨u, hu, hrec, hquiet⟩ := execBitsAt_recovering (recovering_of_inv hinv hs hcount) h5 hlen
  refine ⟨⟨u, hu, hrec.state, hrec.count, hquiet⟩, fun last hten hlast => ?_⟩
  obtain ⟨t, ht, hidle, hmark, hrecord⟩ := errorRecord_of_recovering hrec hlast hten
  refine ⟨t, ?_, hidle, hmark, ?_⟩
  · rw [List.map_append, execBitsAt_append hu]
    exact execBitsAt_cons last ht
  · rw [hrecord, BitVec.ofNat_toNat, BitVec.ofNat_toNat]
    rfl

end Sys2Proof.Machine
end

section
/-! PROOFS. The obligations of 47_bit_clock.md: what CLK_RESYNC and the two rate switches leave (O23), the
bounds of the blended transition length (O24), and when the data rate comes into force (O19). -/

namespace Sys2Proof.Machine

/-! ## The clock operations -/

/-- Settles O23: the rows of `opResult` for the three operations; half a period is a quotient of naturals. -/
theorem clockOperationResults : Obligations.ClockOperationResults := fun _ =>
  ⟨exec_eq_opResult rfl nofun, exec_eq_opResult rfl nofun, exec_eq_opResult rfl nofun⟩

/-! ## The blended transition length -/

/-- The weights of the two periods in a blended length are at most 100 %, so each period bounds its share. -/
theorem blend_bounds {tOld tNew spO spN : Nat} (hO : spO ≤ 100) (hN : spN ≤ 100) :
    0 ≤ blend tOld tNew spO spN ∧ blend tOld tNew spO spN ≤ (tOld + tNew : Nat) := by
  have hcast : blend tOld tNew spO spN = ((spO * tOld + (100 - spN) * tNew) / 100 : Nat) := by
    simp [blend, Nat.cast_sub hN]
  have hOld : spO * tOld ≤ 100 * tOld := Nat.mul_le_mul_right _ hO
  have hNew : (100 - spN) * tNew ≤ 100 * tNew := Nat.mul_le_mul_right _ (Nat.sub_le _ _)
  rw [hcast]
  omega

theorem samplePoint_le {cfg : Config} (h : cfg.legal = true) (up : Bit) : cfg.samplePoint up ≤ 100 := by
  simp only [Config.legal, Bool.and_eq_true, decide_eq_true_eq] at h
  obtain ⟨⟨-, harb⟩, hdata⟩ := h
  cases up
  · exact harb
  · exact hdata

/-- A switch has both periods, one as the old and one as the new. -/
theorem period_not_add_period (cfg : Config) (up : Bit) :
    cfg.period (!up) + cfg.period up = cfg.tArb + cfg.tData := by
  cases up
  · exact Nat.add_comm _ _
  · rfl

/-- Settles O24: a legal configuration has sample points of at most 100 %. -/
theorem blendedLengthIsBounded : Obligations.BlendedLengthIsBounded := by
  intro cfg up hlegal
  rw [← period_not_add_period cfg up]
  exact blend_bounds (samplePoint_le hlegal _) (samplePoint_le hlegal _)

/-! ## The start of the data rate -/

/-- The destuffer never turns the data rate on. -/
theorem dataRate_dsResult_off {s : State} (h : s.dataRate = false) (op : DsOp) (b : Bit) :
    (opResult (op.instr b) s).dataRate = false := by
  cases op
  case stuffError => rfl
  all_goals exact h

/-- Of the engine's writers of `dataRate` only CA_BRS turns it on: CRCDEL_BIT leaves it off, and in
DECODER_ERROR the data rate is out of scope. -/
theorem eq_caBrs_of_dataRate_on {op : EngOp} {b : Bit} {s : State} (hop : mapCondition op s b)
    (hscope : rateScope (opResult (op.instr b) s)) (hoff : s.dataRate = false)
    (hon : (opResult (op.instr b) s).dataRate = true) : op = .caBrs ∧ b = true := by
  have hexec : exec (op.instr b) s = .next (opResult (op.instr b) s) := by
    rw [← runEng_eq_exec, runEng_eq hop]
  obtain ⟨-, -, -, -, -, -, hwriter⟩ := clockRegisterWriters _ _ _ (by cases op <;> rfl) hexec
  obtain hi | hi | hi | hi | herror := hwriter (by simp [hoff, hon])
  · cases op <;> cases hi
  · cases op <;> cases hi
  · cases op <;> cases hi
    exact ⟨rfl, rfl⟩
  · simp [hi, opResult, hoff] at hon
  · obtain ⟨-, -, hstate⟩ := hscope hon
    simp [herror] at hstate

/-- A bit that turns the data rate on is the recessive BRS bit of an FD frame (47_bit_clock.md R215). -/
theorem bitPath_dataRate_on {b : Bit} {s t : State} (h : bitPath b s = .next t) (hscope : rateScope t)
    (hoff : s.dataRate = false) (hon : t.dataRate = true) :
    s.state = .controlAfterR0 ∧ s.frameType = .fdData ∧ s.fieldIdx = 0 ∧
      t.brs = true ∧ t.prevBit = true := by
  have hds := dataRate_dsResult_off hoff (dsOpOf s b) b
  obtain ⟨-, rfl | ⟨op, hreach, hop, rfl⟩⟩ := bitPath_cases h
  · cases hds.symm.trans hon
  · obtain ⟨rfl, rfl⟩ := eq_caBrs_of_dataRate_on ((mapCondition_dsResult hreach b s).2 hop) hscope
      (by rw [fed_eq]; exact hds) hon
    obtain ⟨hstate, hframe, hslot⟩ := hop
    exact ⟨hstate, hframe, BitVec.eq_of_toNat_eq (Nat.succ.inj hslot), rfl, rfl⟩

/-- Settles O19: the invariant after the step keeps the data rate off in IDLE; neither RESET nor a tick in
which no bit is due turns it on. -/
theorem dataRateOnlyAfterRecessiveBrs : Obligations.DataRateOnlyAfterRecessiveBrs := by
  intro s t hinv hstep
  have hscope := (stepKeepsTheInvariant s t hinv hstep).rate
  refine ⟨fun hidle => by simpa [rateScope, hidle] using hscope, fun hoff hon => ?_⟩
  obtain ⟨p, rest, hin, -, ⟨-, -, rfl⟩ | ⟨hrst, -⟩⟩ := step_eq_next hstep
  · cases hon
  obtain ⟨v, u, rfl, rfl | ⟨c, w, hw, rfl⟩⟩ := step_cases hin hrst hstep
  · rw [clocked_eq] at hon
    cases hoff.symm.trans hon
  · rw [clocked_eq] at hw
    exact (bitPath_dataRate_on hw hscope hoff hon :)

end Sys2Proof.Machine
end

section
/-! PROOFS. The obligations of 60_exceptions.md: the registers the error entry writes (O50), the operations
that take it, with their causes and marks (O51), and the bits inside DECODER_ERROR, which take none (O52). -/

namespace Sys2Proof.Machine

/-! ## The error entry -/

/-- Settles O50: the entry is that register update. -/
theorem errorEntryWritesSevenRegisters : Obligations.ErrorEntryWritesSevenRegisters :=
  fun _ _ => rfl

/-- `t` is the error entry for `cause` out of the state of `s`, with the mark `mark` put at the bit. -/
def RaisedFrom (s : State) (cause : ErrCause) (mark : MarkKind) (t : State) : Prop :=
  ∃ u : State, t = raiseError cause u ∧ u.state = s.state ∧ u.markOut = some ⟨mark, s.sampleIdx⟩

/-- An operation outside the table of 60_exceptions.md R231 does not enter DECODER_ERROR. -/
theorem opResult_stays_of_errorTable_none {i : Instr} (h : errorTable i = none) {s : State}
    (hs : s.state ≠ .decoderError) : (opResult i s).state ≠ .decoderError := by
  generalize ht : opResult i s = t
  cases i <;> cases h
  case sbcLast b => subst ht; exact (fdCrcState_ne s.dlc).2
  all_goals
    simp only [opResult, afterControl_eq, dataBitRouted_eq, dataBitCounted_eq] at ht
    (repeat' split at ht) <;> subst ht <;> simp [hs]

/-- An operation of the table takes the error entry with the table's cause and mark, or does not enter
DECODER_ERROR. -/
theorem opResult_raises_of_errorTable {i : Instr} {cause : ErrCause} {mark : MarkKind}
    (h : errorTable i = some (cause, mark)) {s : State} (hs : s.state ≠ .decoderError) :
    RaisedFrom s cause mark (opResult i s) ∨ (opResult i s).state ≠ .decoderError := by
  cases i <;> cases h
  case dsStuffError b => exact .inl ⟨_, rfl, rfl, rfl⟩
  case cbRes b | ceR0 b =>
    cases b
    · exact .inr nofun
    · exact .inl ⟨_, rfl, rfl, rfl⟩
  case sbcFsb b | crc17Fsb b | crc21Fsb b =>
    by_cases hb : b = s.prevBit
    · exact .inl ⟨_, if_pos hb, rfl, rfl⟩
    · exact .inr (by simpa only [opResult, if_neg hb] using hs)
  case crc15Last b =>
    by_cases hcrc : s.crc15 = 0
    · exact .inr (by simp [opResult, hcrc])
    · have herr : (s.crc15 != 0) = true := bne_iff_ne.2 hcrc
      exact .inl ⟨_, if_pos herr, rfl, congrArg some (if_pos herr)⟩
  case crcdelBit b | ackDel b | eofBit b | ifsBit b =>
    cases b
    · exact .inl ⟨_, rfl, rfl, rfl⟩
    · right
      simp only [opResult, if_true, Bool.true_eq_false, if_false]
      (repeat' split) <;> simp [hs]

/-- Settles O51: the operation is one of the table, and its registers are those of the error entry. -/
theorem errorsAreThoseOfTheTable : Obligations.ErrorsAreThoseOfTheTable := by
  intro i s t hi hs hexec ht
  obtain rfl := eq_opResult hi hexec
  cases htable : errorTable i with
  | none => exact absurd ht (opResult_stays_of_errorTable_none htable hs)
  | some row =>
    obtain ⟨cause, mark⟩ := row
    obtain ⟨u, hraise, hstate, hmark⟩ :=
      (opResult_raises_of_errorTable htable hs).resolve_right (not_not_intro ht)
    rw [hraise]
    exact ⟨cause, mark, rfl, rfl, hmark, hstate, rfl, rfl, rfl, rfl⟩

/-! ## Inside DECODER_ERROR -/

/-- ERR_BIT raises nothing and puts no mark (60_exceptions.md R238, 30_encoding.md R83). -/
theorem opResult_errBit_frame (b : Bit) (s : State) :
    (opResult (.errBit b) s).errCause = s.errCause ∧ (opResult (.errBit b) s).errState = s.errState ∧
      (opResult (.errBit b) s).markOut = s.markOut := by
  cases b
  · exact ⟨rfl, rfl, rfl⟩
  · rw [opResult_errBit_recessive]
    split <;> exact ⟨rfl, rfl, rfl⟩

/-- Settles O52: the bit is ERR_BIT's, whose dominant row only restarts the count. -/
theorem noErrorInsideDecoderError : Obligations.NoErrorInsideDecoderError := by
  intro b s hinv hs
  have hds : s.dsActive = false := by simpa [destufferScope, hs] using hinv.scope
  obtain ⟨hcause, hdetected, hmark⟩ := opResult_errBit_frame b (centred s)
  refine ⟨_, exec_clkSample_of_decoderError hs hds hinv.run.1 b, hcause, hdetected, hmark, ?_⟩
  rintro rfl
  exact ⟨hs, rfl, rfl⟩

end Sys2Proof.Machine
end

section
/-! PROOFS. The obligations of 70_reset_and_hazards.md: the registers RESET loads (O20), the reset tick reads
nothing but the configuration it presents (O21), and the reset state keeps the invariant (O17). -/

namespace Sys2Proof.Machine

/-- RESET, by the legality of the configuration in force (70_reset_and_hazards.md R260, 10_state.md R44). -/
theorem exec_reset (s : State) :
    exec .reset s =
      if s.cfg.legal then .next (State.resetWith s.cfg s.input) else .refused .illegalConfig :=
  rfl

/-- A reset tick, in terms of the ports alone: the configuration it presents may differ from the one in force
(70_reset_and_hazards.md R266). -/
theorem step_of_rst {s : State} {p : PortIn} {rest : List PortIn} (hin : s.input = p :: rest)
    (hrst : p.rst = true) :
    step s = if p.cfg.legal then .next (State.resetWith p.cfg rest) else .refused .illegalConfig := by
  rw [step_cons hin, hrst, if_neg fun hc => Bool.noConfusion hc.1, if_pos rfl, exec_reset]

/-- Settles O21: each outcome is `step_of_rst` of the same configuration and the same input to come. -/
theorem resetTickForgetsEverything : Obligations.ResetTickForgetsEverything := by
  intro s u p q rest hs hu hp hq hcfg
  rw [step_of_rst hs hp, step_of_rst hu hq, hcfg]

/-- Settles O20: the state is the one RESET loads, and its buffer lists no byte. -/
theorem resetLoadsEveryRegister : Obligations.ResetLoadsEveryRegister := by
  intro s hlegal
  have hreset : exec .reset s = .next (State.resetWith s.cfg s.input) := by
    rw [exec_reset, if_pos hlegal]
  refine ⟨hreset, fun t k ht => ?_⟩
  obtain rfl := Host.Outcome.next.inj (hreset.symm.trans ht)
  rfl

/-- Settles O17: K32 is a legal configuration too. -/
theorem resetMeetsTheInvariant : Obligations.ResetMeetsTheInvariant :=
  ⟨inv_resetWith (by decide) [], fun _ input hlegal => inv_resetWith hlegal input⟩

end Sys2Proof.Machine
end
